-- ==== Sys2Proof/Word.lean ====
section
/-! DEFINITION. The word types of the block: 32-bit register words and addresses, 8-bit bytes, 9-bit register access codes (30_encoding.md R301, R310). Every value is unsigned (00_scope.md R12). -/

namespace Sys2Proof

/-- A register word, a byte address or a descriptor: 32 bits (20_memory.md R200, R211; 30_encoding.md R310). -/
abbrev Word := BitVec 32

/-- A byte of data memory or of the SPI bus (20_memory.md R216). -/
abbrev Byte := BitVec 8

/-- A register access code `RAC`: bit 8 is W, bits 7:0 are OFF (30_encoding.md R301). -/
abbrev AccessCode := BitVec 9

end Sys2Proof
end

