-- ==== Sys2Proof/Config.lean ====
section
/-! DEFINITION. What a launch or the spec fixes (00_scope.md R10): the constants the source or the spec gives a value, the launch parameters, the agents (00_scope.md R17), and the free values of the model. -/

namespace Sys2Proof

/-- ERROR_POLICY: whether an error halts the system or is returned to the task (60_exceptions.md R610). -/
inductive ErrorPolicy where
  | fatal
  | report
deriving DecidableEq, Repr, Inhabited

/-- TIMEOUT_MODEL: when the notification wait may time out (43_dma_engine.md R503). -/
inductive TimeoutModel where
  | free
  | hungOnly
  | never
deriving DecidableEq, Repr, Inhabited

/-- The two DMA channels: `ch0` transmit, `ch1` receive (10_state.md R130). -/
inductive Chan where
  | ch0
  | ch1
deriving DecidableEq, Repr, Inhabited

/-- The agents, each of which may take a step whenever one of its steps is enabled (00_scope.md R17). -/
inductive Agent where
  /-- task `t`: issues, direct accesses, steps of its own operation -/
  | task (t : Nat)
  /-- the SPI shift engine: START and FINISH -/
  | shift
  /-- a DMA channel -/
  | dma (n : Chan)
  /-- the timer counter -/
  | timer
  /-- the DMA-complete interrupt handler -/
  | dmaHandler
  /-- the IRQ-line interrupt handler -/
  | irqHandler
  /-- the timer-overflow handler, which stands outside the block (41_timer.md R427) -/
  | ovfHandler
  /-- the attached device, driving the IRQ pin -/
  | device
  /-- the notification timeout of task `t` -/
  | timeout (t : Nat)
deriving DecidableEq, Repr, Inhabited

/-- A range of byte addresses: `base`, `base + 1`, ..., `base + size - 1`. -/
structure Range where
  base : Nat
  size : Nat
deriving DecidableEq, Repr, Inhabited

/-- The launch parameters of 00_scope.md R10 (N_TASKS is the number of tasks of the state). They are
data of the state, so a statement over all states holds for every value of them. -/
structure Params where
  /-- BLOCK_BASE: byte address of register offset 0x00 -/
  blockBase : Word
  /-- ADMIT: the data-memory addresses the launch memory admits, as ranges -/
  admitRanges : List Range
  /-- TIMER_WIDTH, the W of the rules -/
  timerWidth : Nat
  /-- TIME_PER_BYTE, the TPB of the rules, in ticks -/
  timePerByte : Nat
  /-- ERROR_POLICY -/
  errorPolicy : ErrorPolicy
  /-- TIMEOUT_MODEL -/
  timeoutModel : TimeoutModel
  /-- RX_PACE: `true` is on -/
  rxPace : Bool
  /-- FRAME_TX_BASE -/
  frameTxBase : Word
  /-- FRAME_RX_BASE -/
  frameRxBase : Word
  /-- INIT_RF_CH -/
  initRfCh : Byte
  /-- INIT_ADDR, least-significant byte first -/
  initAddr : List Byte
  /-- INIT_SETUP_RETR -/
  initSetupRetr : Byte
  /-- CS_ACTIVE_HIGH: electrical level of an asserted CS line (at `State.reset`: log 27) -/
  csActiveHigh : Bool
deriving DecidableEq, Repr, Inhabited

namespace Config

/-- CE_PULSE_TICKS, the source's "10 time-units". -/
def cePulseTicks : Nat := 10

/-- MAX_FRAME, the largest transport length in bytes. -/
def maxFrame : Nat := 32

/-- MAX_PAYLOAD, the largest SendPayload length (90_conflicts.md C1). -/
def maxPayload : Nat := 30

/-- MAX_ADDR, the largest WriteAddressRegister length (90_conflicts.md C4). -/
def maxAddr : Nat := 5

/-- NOTIFY_EXPECTED, the notification value TransmitDMA accepts. -/
def notifyExpected : Nat := 1

/-- The largest device register address a command byte holds (30_encoding.md R321). -/
def maxReg : Nat := 0x1F

/-- DMA_TIMEOUT_MS, informative: no rule reads it (43_dma_engine.md R504). -/
def dmaTimeoutMs : Nat := 200

/-- The size in bytes of the register window (20_memory.md R200). -/
def windowSize : Nat := 0x100

/-- The size in bytes of each scratch frame buffer (44_frame_sequencer.md R520). -/
def frameSize : Nat := 32

/-- FREE VALUE (log 1): the agent that gets the next turn when the state lists none. -/
opaque freeAgent : Nat → Agent

/-- FREE VALUE (log 2): a MISO byte, a draw under no law (42_spi_transport.md R446). -/
opaque freeMiso : Nat → Byte

/-- FREE VALUE (log 3): a level of the IRQ pin, a draw under no law (44_frame_sequencer.md R560). -/
opaque freePin : Nat → Bool

end Config

/-- The parameters of `State.reset` (log 6, DESIGN CHOICE): the values of the launch of
95_test_vectors.md section 0 where 00_scope.md R10 leaves the parameter OPEN and that section gives it
one, and the default of R10 where it is decided (fatal, free, off). CS_ACTIVE_HIGH is OPEN in R10 and
section 0 gives it no value: active low is the model's choice here (log 27, DESIGN CHOICE), which
91_not_in_source.md N7 says not to assume; no rule depends on it and only `csLine` reads it. -/
def Params.vectors : Params where
  blockBase := 0x40013000#32
  admitRanges := [⟨0x20000000, 0x1000⟩]
  timerWidth := 16
  timePerByte := 2
  errorPolicy := .fatal
  timeoutModel := .free
  rxPace := false
  frameTxBase := 0x20000F00#32
  frameRxBase := 0x20000F40#32
  initRfCh := 0x4C#8
  initAddr := [0xE7#8, 0xE7#8, 0xE7#8, 0xE7#8, 0xE7#8]
  initSetupRetr := 0x3F#8
  csActiveHigh := false

end Sys2Proof
end

