-- ==== Sys2Proof/Syntax.lean ====
section
/-! DEFINITION. The syntax of the block: the registers (10_state.md R111-R135), the instructions (one constructor per row of spec/opcode_table.json), the raw words they are written in (30_encoding.md R300), the invocations of a task program (10_state.md R143) and the pseudo-instructions (30_encoding.md R331). -/

namespace Sys2Proof

/-- The direction of a register access (30_encoding.md R301). -/
inductive Dir where
  | read
  | write
deriving DecidableEq, Repr, Inhabited

/-- The registers of the block's window (10_state.md R111-R135). -/
inductive Reg where
  | spiDr
  | spiSr
  | spiCr
  | csSet
  | csClr
  | csState
  | ceSet
  | ceClr
  | ceState
  | ceCfg
  | irqCfg
  | irqPend
  | tmrCtrl
  | tmrLoad
  | tmrCount
  | tmrIer
  | tmrSr
  | dmaSrc (n : Chan)
  | dmaDst (n : Chan)
  | dmaCnt (n : Chan)
  | dmaCtrl (n : Chan)
  | dmaFlags (n : Chan)
  | dmaIrq
deriving DecidableEq, Repr, Inhabited

/-- The instructions: the register accesses of 30_encoding.md R303 (`n` is the access size in bytes and
`v` the written value, both outside the 9-bit code), the operations of R312 (with both argument words,
the ones an operation ignores among them, R311), and the frame command bytes of R320. -/
inductive Instr where
  /-- RD_SPI_DR, R441 -/
  | rdSpiDr (n : Nat)
  /-- WR_SPI_DR, R442 -/
  | wrSpiDr (n : Nat) (v : Word)
  /-- RD_SPI_SR, R440 -/
  | rdSpiSr (n : Nat)
  /-- WR_SPI_SR, R443 -/
  | wrSpiSr (n : Nat) (v : Word)
  /-- RD_SPI_CR, R447 -/
  | rdSpiCr (n : Nat)
  /-- WR_SPI_CR, R447 -/
  | wrSpiCr (n : Nat) (v : Word)
  /-- RD_CS_SET, R402 -/
  | rdCsSet (n : Nat)
  /-- WR_CS_SET, R400 -/
  | wrCsSet (n : Nat) (v : Word)
  /-- RD_CS_CLR, R402 -/
  | rdCsClr (n : Nat)
  /-- WR_CS_CLR, R401 -/
  | wrCsClr (n : Nat) (v : Word)
  /-- RD_CS_STATE, R402 -/
  | rdCsState (n : Nat)
  /-- RD_CE_SET, R407 -/
  | rdCeSet (n : Nat)
  /-- WR_CE_SET, R404 -/
  | wrCeSet (n : Nat) (v : Word)
  /-- RD_CE_CLR, R407 -/
  | rdCeClr (n : Nat)
  /-- WR_CE_CLR, R405 -/
  | wrCeClr (n : Nat) (v : Word)
  /-- RD_CE_STATE, R407 -/
  | rdCeState (n : Nat)
  /-- RD_CE_CFG, R406 -/
  | rdCeCfg (n : Nat)
  /-- WR_CE_CFG, R406 -/
  | wrCeCfg (n : Nat) (v : Word)
  /-- RD_IRQ_CFG, R561 -/
  | rdIrqCfg (n : Nat)
  /-- WR_IRQ_CFG, R561 -/
  | wrIrqCfg (n : Nat) (v : Word)
  /-- RD_IRQ_PEND, R562 -/
  | rdIrqPend (n : Nat)
  /-- WR_IRQ_PEND, R562 -/
  | wrIrqPend (n : Nat) (v : Word)
  /-- RD_TMR_CTRL, R421 -/
  | rdTmrCtrl (n : Nat)
  /-- WR_TMR_CTRL, R420 -/
  | wrTmrCtrl (n : Nat) (v : Word)
  /-- RD_TMR_LOAD, R422 -/
  | rdTmrLoad (n : Nat)
  /-- WR_TMR_LOAD, R422 -/
  | wrTmrLoad (n : Nat) (v : Word)
  /-- RD_TMR_COUNT, R423 -/
  | rdTmrCount (n : Nat)
  /-- RD_TMR_IER, R424 -/
  | rdTmrIer (n : Nat)
  /-- WR_TMR_IER, R424 -/
  | wrTmrIer (n : Nat) (v : Word)
  /-- RD_TMR_SR, R425 -/
  | rdTmrSr (n : Nat)
  /-- WR_TMR_SR, R425 -/
  | wrTmrSr (n : Nat) (v : Word)
  /-- RD_DMA_SRC0, R480 -/
  | rdDmaSrc0 (n : Nat)
  /-- WR_DMA_SRC0, R480 -/
  | wrDmaSrc0 (n : Nat) (v : Word)
  /-- RD_DMA_DST0, R480 -/
  | rdDmaDst0 (n : Nat)
  /-- WR_DMA_DST0, R480 -/
  | wrDmaDst0 (n : Nat) (v : Word)
  /-- RD_DMA_CNT0, R480 -/
  | rdDmaCnt0 (n : Nat)
  /-- WR_DMA_CNT0, R480 -/
  | wrDmaCnt0 (n : Nat) (v : Word)
  /-- RD_DMA_CTRL0, R481 -/
  | rdDmaCtrl0 (n : Nat)
  /-- WR_DMA_CTRL0, R482 -/
  | wrDmaCtrl0 (n : Nat) (v : Word)
  /-- RD_DMA_FLAGS0, R483 -/
  | rdDmaFlags0 (n : Nat)
  /-- WR_DMA_FLAGS0, R483 -/
  | wrDmaFlags0 (n : Nat) (v : Word)
  /-- RD_DMA_SRC1, R480 -/
  | rdDmaSrc1 (n : Nat)
  /-- WR_DMA_SRC1, R480 -/
  | wrDmaSrc1 (n : Nat) (v : Word)
  /-- RD_DMA_DST1, R480 -/
  | rdDmaDst1 (n : Nat)
  /-- WR_DMA_DST1, R480 -/
  | wrDmaDst1 (n : Nat) (v : Word)
  /-- RD_DMA_CNT1, R480 -/
  | rdDmaCnt1 (n : Nat)
  /-- WR_DMA_CNT1, R480 -/
  | wrDmaCnt1 (n : Nat) (v : Word)
  /-- RD_DMA_CTRL1, R481 -/
  | rdDmaCtrl1 (n : Nat)
  /-- WR_DMA_CTRL1, R482 -/
  | wrDmaCtrl1 (n : Nat) (v : Word)
  /-- RD_DMA_FLAGS1, R483 -/
  | rdDmaFlags1 (n : Nat)
  /-- WR_DMA_FLAGS1, R483 -/
  | wrDmaFlags1 (n : Nat) (v : Word)
  /-- RD_DMA_IRQ, R489 -/
  | rdDmaIrq (n : Nat)
  /-- WR_DMA_IRQ, R489 -/
  | wrDmaIrq (n : Nat) (v : Word)
  /-- RDB, R450 -/
  | rdb (argTx argRx : Word)
  /-- TXB, R452 -/
  | txb (byte : Byte) (argTx argRx : Word)
  /-- TXP, R454 -/
  | txp (len : Byte) (argTx argRx : Word)
  /-- TXD, R457 -/
  | txd (len : Byte) (argTx argRx : Word)
  /-- SCS, R410 -/
  | scs (level : Bool) (argTx argRx : Word)
  /-- PULSE, R525 -/
  | pulse (argTx argRx : Word)
  /-- WREG, R530 -/
  | wreg (reg value : Byte) (argTx argRx : Word)
  /-- WADDR, R534 -/
  | waddr (reg len : Byte) (argTx argRx : Word)
  /-- CMD, R538 -/
  | cmd (command : Byte) (argTx argRx : Word)
  /-- RSTAT, R540 -/
  | rstat (argTx argRx : Word)
  /-- SEND, R544 -/
  | send (len : Byte) (argTx argRx : Word)
  /-- INIT, R550 -/
  | init (argTx argRx : Word)
  /-- W_REGISTER, R320 -/
  | wRegister (reg : BitVec 5)
  /-- W_TX_PAYLOAD, R320 -/
  | wTxPayload
  /-- FLUSH_TX, R320 -/
  | flushTx
  /-- FLUSH_RX, R320 -/
  | flushRx
deriving DecidableEq, Repr

/-- The raw forms an instruction is written in (30_encoding.md R300): a register access code with the
access size and the written value, a descriptor with its two argument words, a frame command byte. -/
inductive Words where
  | rac (code : AccessCode) (size : Nat) (value : Word)
  | desc (d argTx argRx : Word)
  | fcb (b : Byte)
deriving DecidableEq, Repr

/-- An entry of a task program (10_state.md R143). -/
inductive Invocation where
  | op (desc argTx argRx : Word)
  | acc (off : Byte) (size : Nat) (dir : Dir) (value : Word)
deriving DecidableEq, Repr

/-- The pseudo-instructions of 30_encoding.md R331. -/
inductive Pseudo where
  | csa
  | csd
  | flushTx
  | flushRx
  | wstatus (v : Byte)
deriving DecidableEq, Repr

/-- The expansions of 30_encoding.md R331 (argument words zero: the operations name none). -/
def Pseudo.expand : Pseudo → Instr
  | .csa => .scs true 0 0
  | .csd => .scs false 0 0
  | .flushTx => .cmd 0xE1#8 0 0
  | .flushRx => .cmd 0xE2#8 0 0
  | .wstatus v => .wreg 0x07#8 v 0 0

end Sys2Proof
end

