-- ==== Sys2Proof/WellFormed.lean ====
section
/-! DEFINITION. Which instructions the block's encodings can write (10_state.md R143): a register access has size 1 or 4; every other field is bounded by its type. -/

namespace Sys2Proof

/-- The access sizes an invocation names (10_state.md R143: `size : 1 | 4`). -/
def accessSizeOk (n : Nat) : Bool := n == 1 || n == 4

/-- A well-formed instruction: its access size, if it has one, is 1 or 4. -/
def wellFormed : Instr → Bool
  | .rdSpiDr n => accessSizeOk n
  | .wrSpiDr n _ => accessSizeOk n
  | .rdSpiSr n => accessSizeOk n
  | .wrSpiSr n _ => accessSizeOk n
  | .rdSpiCr n => accessSizeOk n
  | .wrSpiCr n _ => accessSizeOk n
  | .rdCsSet n => accessSizeOk n
  | .wrCsSet n _ => accessSizeOk n
  | .rdCsClr n => accessSizeOk n
  | .wrCsClr n _ => accessSizeOk n
  | .rdCsState n => accessSizeOk n
  | .rdCeSet n => accessSizeOk n
  | .wrCeSet n _ => accessSizeOk n
  | .rdCeClr n => accessSizeOk n
  | .wrCeClr n _ => accessSizeOk n
  | .rdCeState n => accessSizeOk n
  | .rdCeCfg n => accessSizeOk n
  | .wrCeCfg n _ => accessSizeOk n
  | .rdIrqCfg n => accessSizeOk n
  | .wrIrqCfg n _ => accessSizeOk n
  | .rdIrqPend n => accessSizeOk n
  | .wrIrqPend n _ => accessSizeOk n
  | .rdTmrCtrl n => accessSizeOk n
  | .wrTmrCtrl n _ => accessSizeOk n
  | .rdTmrLoad n => accessSizeOk n
  | .wrTmrLoad n _ => accessSizeOk n
  | .rdTmrCount n => accessSizeOk n
  | .rdTmrIer n => accessSizeOk n
  | .wrTmrIer n _ => accessSizeOk n
  | .rdTmrSr n => accessSizeOk n
  | .wrTmrSr n _ => accessSizeOk n
  | .rdDmaSrc0 n => accessSizeOk n
  | .wrDmaSrc0 n _ => accessSizeOk n
  | .rdDmaDst0 n => accessSizeOk n
  | .wrDmaDst0 n _ => accessSizeOk n
  | .rdDmaCnt0 n => accessSizeOk n
  | .wrDmaCnt0 n _ => accessSizeOk n
  | .rdDmaCtrl0 n => accessSizeOk n
  | .wrDmaCtrl0 n _ => accessSizeOk n
  | .rdDmaFlags0 n => accessSizeOk n
  | .wrDmaFlags0 n _ => accessSizeOk n
  | .rdDmaSrc1 n => accessSizeOk n
  | .wrDmaSrc1 n _ => accessSizeOk n
  | .rdDmaDst1 n => accessSizeOk n
  | .wrDmaDst1 n _ => accessSizeOk n
  | .rdDmaCnt1 n => accessSizeOk n
  | .wrDmaCnt1 n _ => accessSizeOk n
  | .rdDmaCtrl1 n => accessSizeOk n
  | .wrDmaCtrl1 n _ => accessSizeOk n
  | .rdDmaFlags1 n => accessSizeOk n
  | .wrDmaFlags1 n _ => accessSizeOk n
  | .rdDmaIrq n => accessSizeOk n
  | .wrDmaIrq n _ => accessSizeOk n
  | .rdb _ _ => true
  | .txb _ _ _ => true
  | .txp _ _ _ => true
  | .txd _ _ _ => true
  | .scs _ _ _ => true
  | .pulse _ _ => true
  | .wreg _ _ _ _ => true
  | .waddr _ _ _ _ => true
  | .cmd _ _ _ => true
  | .rstat _ _ => true
  | .send _ _ _ => true
  | .init _ _ => true
  | .wRegister _ => true
  | .wTxPayload => true
  | .flushTx => true
  | .flushRx => true

end Sys2Proof
end

