-- ==== Sys2Proof/Decode.lean ====
section
/-! DEFINITION. The decoder of the block's three forms (30_encoding.md R300-R321), total and rejecting by name, and after it the encoder, written from the same tables. -/

namespace Sys2Proof

/-- Why words decode to no instruction. -/
inductive Reject where
  /-- no row of 30_encoding.md R303: unassigned, or a write to a read-only register -/
  | unassignedAccess (code : AccessCode)
  /-- no row of 30_encoding.md R312: a reserved OPC, or a nonzero field that must be zero (R313) -/
  | illegalDescriptor (d : Word)
  /-- no row of 30_encoding.md R320: a data byte -/
  | notACommandByte (b : Byte)
deriving DecidableEq, Repr

/-! ### Registers and offsets (10_state.md R111-R136) -/

/-- The first offset of channel `n`: 0x80 + 0x20 n (10_state.md R131). -/
def chanBase : Chan → Byte
  | .ch0 => 0x80#8
  | .ch1 => 0xA0#8

/-- The offset of a register from BLOCK_BASE. -/
def regOffset : Reg → Byte
  | .spiDr => 0x00#8
  | .spiSr => 0x04#8
  | .spiCr => 0x08#8
  | .csSet => 0x10#8
  | .csClr => 0x14#8
  | .csState => 0x18#8
  | .ceSet => 0x20#8
  | .ceClr => 0x24#8
  | .ceState => 0x28#8
  | .ceCfg => 0x2C#8
  | .irqCfg => 0x30#8
  | .irqPend => 0x34#8
  | .tmrCtrl => 0x40#8
  | .tmrLoad => 0x44#8
  | .tmrCount => 0x48#8
  | .tmrIer => 0x4C#8
  | .tmrSr => 0x50#8
  | .dmaSrc n => chanBase n
  | .dmaDst n => chanBase n + 0x04#8
  | .dmaCnt n => chanBase n + 0x08#8
  | .dmaCtrl n => chanBase n + 0x0C#8
  | .dmaFlags n => chanBase n + 0x10#8
  | .dmaIrq => 0xC0#8

/-- The register at an offset; every offset not listed is unassigned (10_state.md R136). -/
def regAt (off : Byte) : Option Reg :=
  match off.toNat with
  | 0x00 => some .spiDr
  | 0x04 => some .spiSr
  | 0x08 => some .spiCr
  | 0x10 => some .csSet
  | 0x14 => some .csClr
  | 0x18 => some .csState
  | 0x20 => some .ceSet
  | 0x24 => some .ceClr
  | 0x28 => some .ceState
  | 0x2C => some .ceCfg
  | 0x30 => some .irqCfg
  | 0x34 => some .irqPend
  | 0x40 => some .tmrCtrl
  | 0x44 => some .tmrLoad
  | 0x48 => some .tmrCount
  | 0x4C => some .tmrIer
  | 0x50 => some .tmrSr
  | 0x80 => some (.dmaSrc .ch0)
  | 0x84 => some (.dmaDst .ch0)
  | 0x88 => some (.dmaCnt .ch0)
  | 0x8C => some (.dmaCtrl .ch0)
  | 0x90 => some (.dmaFlags .ch0)
  | 0xA0 => some (.dmaSrc .ch1)
  | 0xA4 => some (.dmaDst .ch1)
  | 0xA8 => some (.dmaCnt .ch1)
  | 0xAC => some (.dmaCtrl .ch1)
  | 0xB0 => some (.dmaFlags .ch1)
  | 0xC0 => some .dmaIrq
  | _ => none

/-! ### Register access codes (30_encoding.md R301-R303) -/

/-- Assembles an access code: bit 8 is W, bits 7:0 are OFF. -/
def accessCode (d : Dir) (off : Byte) : AccessCode :=
  (match d with
    | .read => 0#1
    | .write => 1#1) ++ off

/-- The OFF field of an access code. -/
def codeOffset (c : AccessCode) : Byte := c.extractLsb' 0 8

/-- The W field of an access code. -/
def codeDir (c : AccessCode) : Dir := if c.getLsbD 8 then .write else .read

/-- The row of 30_encoding.md R303 for a read of a register. -/
def readInstr (n : Nat) : Reg → Instr
  | .spiDr => .rdSpiDr n
  | .spiSr => .rdSpiSr n
  | .spiCr => .rdSpiCr n
  | .csSet => .rdCsSet n
  | .csClr => .rdCsClr n
  | .csState => .rdCsState n
  | .ceSet => .rdCeSet n
  | .ceClr => .rdCeClr n
  | .ceState => .rdCeState n
  | .ceCfg => .rdCeCfg n
  | .irqCfg => .rdIrqCfg n
  | .irqPend => .rdIrqPend n
  | .tmrCtrl => .rdTmrCtrl n
  | .tmrLoad => .rdTmrLoad n
  | .tmrCount => .rdTmrCount n
  | .tmrIer => .rdTmrIer n
  | .tmrSr => .rdTmrSr n
  | .dmaSrc .ch0 => .rdDmaSrc0 n
  | .dmaDst .ch0 => .rdDmaDst0 n
  | .dmaCnt .ch0 => .rdDmaCnt0 n
  | .dmaCtrl .ch0 => .rdDmaCtrl0 n
  | .dmaFlags .ch0 => .rdDmaFlags0 n
  | .dmaSrc .ch1 => .rdDmaSrc1 n
  | .dmaDst .ch1 => .rdDmaDst1 n
  | .dmaCnt .ch1 => .rdDmaCnt1 n
  | .dmaCtrl .ch1 => .rdDmaCtrl1 n
  | .dmaFlags .ch1 => .rdDmaFlags1 n
  | .dmaIrq => .rdDmaIrq n

/-- The row of 30_encoding.md R303 for a write of a register; CS_STATE, CE_STATE and TMR_COUNT have none. -/
def writeInstr (n : Nat) (v : Word) : Reg → Option Instr
  | .spiDr => some (.wrSpiDr n v)
  | .spiSr => some (.wrSpiSr n v)
  | .spiCr => some (.wrSpiCr n v)
  | .csSet => some (.wrCsSet n v)
  | .csClr => some (.wrCsClr n v)
  | .ceSet => some (.wrCeSet n v)
  | .ceClr => some (.wrCeClr n v)
  | .ceCfg => some (.wrCeCfg n v)
  | .irqCfg => some (.wrIrqCfg n v)
  | .irqPend => some (.wrIrqPend n v)
  | .tmrCtrl => some (.wrTmrCtrl n v)
  | .tmrLoad => some (.wrTmrLoad n v)
  | .tmrIer => some (.wrTmrIer n v)
  | .tmrSr => some (.wrTmrSr n v)
  | .dmaSrc .ch0 => some (.wrDmaSrc0 n v)
  | .dmaDst .ch0 => some (.wrDmaDst0 n v)
  | .dmaCnt .ch0 => some (.wrDmaCnt0 n v)
  | .dmaCtrl .ch0 => some (.wrDmaCtrl0 n v)
  | .dmaFlags .ch0 => some (.wrDmaFlags0 n v)
  | .dmaSrc .ch1 => some (.wrDmaSrc1 n v)
  | .dmaDst .ch1 => some (.wrDmaDst1 n v)
  | .dmaCnt .ch1 => some (.wrDmaCnt1 n v)
  | .dmaCtrl .ch1 => some (.wrDmaCtrl1 n v)
  | .dmaFlags .ch1 => some (.wrDmaFlags1 n v)
  | .dmaIrq => some (.wrDmaIrq n v)
  | .csState => none
  | .ceState => none
  | .tmrCount => none

/-- Decodes an access code, its size and its written value (a read ignores the value, 10_state.md R143). -/
def decodeRac (c : AccessCode) (n : Nat) (v : Word) : Except Reject Instr :=
  match regAt (codeOffset c), codeDir c with
  | some r, .read => .ok (readInstr n r)
  | some r, .write =>
    match writeInstr n v r with
    | some i => .ok i
    | none => .error (.unassignedAccess c)
  | none, _ => .error (.unassignedAccess c)

/-! ### Operation descriptors (30_encoding.md R310-R313) -/

/-- Assembles a descriptor from its four fields, OPC at bits 31:24. -/
def mkDesc (opc a b len : Byte) : Word := opc ++ a ++ b ++ len

/-- OPC, bits 31:24. -/
def descOpc (d : Word) : Byte := d.extractLsb' 24 8

/-- A, bits 23:16. -/
def descA (d : Word) : Byte := d.extractLsb' 16 8

/-- B, bits 15:8. -/
def descB (d : Word) : Byte := d.extractLsb' 8 8

/-- LEN, bits 7:0. -/
def descLen (d : Word) : Byte := d.extractLsb' 0 8

/-- The A field of SCS: the level in bit 0, bits 7:1 zero. -/
def levelField (level : Bool) : Byte := if level then 1#8 else 0#8

/-- Decodes a descriptor and its argument words: the row of 30_encoding.md R312 whose OPC it has, if
every field that row fixes at zero is zero. -/
def decodeDesc (d x y : Word) : Except Reject Instr :=
  let a := descA d
  let b := descB d
  let n := descLen d
  let only (ok : Bool) (i : Instr) : Except Reject Instr :=
    if ok then .ok i else .error (.illegalDescriptor d)
  match (descOpc d).toNat with
  | 0x01 => only (a == 0 && b == 0 && n == 0) (.rdb x y)
  | 0x02 => only (a == 0 && n == 0) (.txb b x y)
  | 0x03 => only (a == 0 && b == 0) (.txp n x y)
  | 0x04 => only (a == 0 && b == 0) (.txd n x y)
  | 0x05 => only ((a == 0 || a == 1) && b == 0 && n == 0) (.scs (a == 1) x y)
  | 0x10 => only (a == 0 && b == 0 && n == 0) (.pulse x y)
  | 0x20 => only (n == 0) (.wreg a b x y)
  | 0x21 => only (b == 0) (.waddr a n x y)
  | 0x22 => only (a == 0 && n == 0) (.cmd b x y)
  | 0x23 => only (a == 0 && b == 0 && n == 0) (.rstat x y)
  | 0x24 => only (a == 0 && b == 0) (.send n x y)
  | 0x25 => only (a == 0 && b == 0 && n == 0) (.init x y)
  | _ => .error (.illegalDescriptor d)

/-! ### Frame command bytes (30_encoding.md R320, R321) -/

/-- W_REGISTER's byte: 001 in bits 7:5, the register in bits 4:0. -/
def wRegisterByte (reg : BitVec 5) : Byte := 0b001#3 ++ reg

/-- Decodes a frame command byte. -/
def decodeFcb (b : Byte) : Except Reject Instr :=
  if b.extractLsb' 5 3 = 0b001#3 then .ok (.wRegister (b.extractLsb' 0 5))
  else if b = 0xA0#8 then .ok .wTxPayload
  else if b = 0xE1#8 then .ok .flushTx
  else if b = 0xE2#8 then .ok .flushRx
  else .error (.notACommandByte b)

/-- The decoder: any words to an instruction or a rejection by name. -/
def decode : Words → Except Reject Instr
  | .rac c n v => decodeRac c n v
  | .desc d x y => decodeDesc d x y
  | .fcb b => decodeFcb b

/-- The words a task program's entry is (30_encoding.md R300). -/
def invocationWords : Invocation → Words
  | .op d x y => .desc d x y
  | .acc off n dir v => .rac (accessCode dir off) n v

/-! ### The encoder -/

/-- A read's words: its value word is not used (10_state.md R143) and is written as zero. -/
def encodeRead (r : Reg) (n : Nat) : Words := .rac (accessCode .read (regOffset r)) n 0

/-- A write's words. -/
def encodeWrite (r : Reg) (n : Nat) (v : Word) : Words := .rac (accessCode .write (regOffset r)) n v

/-- The encoder: an instruction's words. -/
def encode : Instr → Words
  | .rdSpiDr n => encodeRead .spiDr n
  | .wrSpiDr n v => encodeWrite .spiDr n v
  | .rdSpiSr n => encodeRead .spiSr n
  | .wrSpiSr n v => encodeWrite .spiSr n v
  | .rdSpiCr n => encodeRead .spiCr n
  | .wrSpiCr n v => encodeWrite .spiCr n v
  | .rdCsSet n => encodeRead .csSet n
  | .wrCsSet n v => encodeWrite .csSet n v
  | .rdCsClr n => encodeRead .csClr n
  | .wrCsClr n v => encodeWrite .csClr n v
  | .rdCsState n => encodeRead .csState n
  | .rdCeSet n => encodeRead .ceSet n
  | .wrCeSet n v => encodeWrite .ceSet n v
  | .rdCeClr n => encodeRead .ceClr n
  | .wrCeClr n v => encodeWrite .ceClr n v
  | .rdCeState n => encodeRead .ceState n
  | .rdCeCfg n => encodeRead .ceCfg n
  | .wrCeCfg n v => encodeWrite .ceCfg n v
  | .rdIrqCfg n => encodeRead .irqCfg n
  | .wrIrqCfg n v => encodeWrite .irqCfg n v
  | .rdIrqPend n => encodeRead .irqPend n
  | .wrIrqPend n v => encodeWrite .irqPend n v
  | .rdTmrCtrl n => encodeRead .tmrCtrl n
  | .wrTmrCtrl n v => encodeWrite .tmrCtrl n v
  | .rdTmrLoad n => encodeRead .tmrLoad n
  | .wrTmrLoad n v => encodeWrite .tmrLoad n v
  | .rdTmrCount n => encodeRead .tmrCount n
  | .rdTmrIer n => encodeRead .tmrIer n
  | .wrTmrIer n v => encodeWrite .tmrIer n v
  | .rdTmrSr n => encodeRead .tmrSr n
  | .wrTmrSr n v => encodeWrite .tmrSr n v
  | .rdDmaSrc0 n => encodeRead (.dmaSrc .ch0) n
  | .wrDmaSrc0 n v => encodeWrite (.dmaSrc .ch0) n v
  | .rdDmaDst0 n => encodeRead (.dmaDst .ch0) n
  | .wrDmaDst0 n v => encodeWrite (.dmaDst .ch0) n v
  | .rdDmaCnt0 n => encodeRead (.dmaCnt .ch0) n
  | .wrDmaCnt0 n v => encodeWrite (.dmaCnt .ch0) n v
  | .rdDmaCtrl0 n => encodeRead (.dmaCtrl .ch0) n
  | .wrDmaCtrl0 n v => encodeWrite (.dmaCtrl .ch0) n v
  | .rdDmaFlags0 n => encodeRead (.dmaFlags .ch0) n
  | .wrDmaFlags0 n v => encodeWrite (.dmaFlags .ch0) n v
  | .rdDmaSrc1 n => encodeRead (.dmaSrc .ch1) n
  | .wrDmaSrc1 n v => encodeWrite (.dmaSrc .ch1) n v
  | .rdDmaDst1 n => encodeRead (.dmaDst .ch1) n
  | .wrDmaDst1 n v => encodeWrite (.dmaDst .ch1) n v
  | .rdDmaCnt1 n => encodeRead (.dmaCnt .ch1) n
  | .wrDmaCnt1 n v => encodeWrite (.dmaCnt .ch1) n v
  | .rdDmaCtrl1 n => encodeRead (.dmaCtrl .ch1) n
  | .wrDmaCtrl1 n v => encodeWrite (.dmaCtrl .ch1) n v
  | .rdDmaFlags1 n => encodeRead (.dmaFlags .ch1) n
  | .wrDmaFlags1 n v => encodeWrite (.dmaFlags .ch1) n v
  | .rdDmaIrq n => encodeRead .dmaIrq n
  | .wrDmaIrq n v => encodeWrite .dmaIrq n v
  | .rdb x y => .desc (mkDesc 0x01 0 0 0) x y
  | .txb b x y => .desc (mkDesc 0x02 0 b 0) x y
  | .txp n x y => .desc (mkDesc 0x03 0 0 n) x y
  | .txd n x y => .desc (mkDesc 0x04 0 0 n) x y
  | .scs l x y => .desc (mkDesc 0x05 (levelField l) 0 0) x y
  | .pulse x y => .desc (mkDesc 0x10 0 0 0) x y
  | .wreg a b x y => .desc (mkDesc 0x20 a b 0) x y
  | .waddr a n x y => .desc (mkDesc 0x21 a 0 n) x y
  | .cmd b x y => .desc (mkDesc 0x22 0 b 0) x y
  | .rstat x y => .desc (mkDesc 0x23 0 0 0) x y
  | .send n x y => .desc (mkDesc 0x24 0 0 n) x y
  | .init x y => .desc (mkDesc 0x25 0 0 0) x y
  | .wRegister r => .fcb (wRegisterByte r)
  | .wTxPayload => .fcb 0xA0
  | .flushTx => .fcb 0xE1
  | .flushRx => .fcb 0xE2

/-- The words the encoder writes for what these words decode to: a read's value word is not used
(10_state.md R143) and is zero, everything else is kept. -/
def canonicalWords : Words → Words
  | .rac c n v => .rac c n (if c.getLsbD 8 then v else 0)
  | .desc d x y => .desc d x y
  | .fcb b => .fcb b

/-! ### Assembly syntax (30_encoding.md R330) -/

/-- A register's name in the assembly syntax, with the channel of a DMA register. -/
def regName : Reg → String
  | .spiDr => "SPI_DR"
  | .spiSr => "SPI_SR"
  | .spiCr => "SPI_CR"
  | .csSet => "CS_SET"
  | .csClr => "CS_CLR"
  | .csState => "CS_STATE"
  | .ceSet => "CE_SET"
  | .ceClr => "CE_CLR"
  | .ceState => "CE_STATE"
  | .ceCfg => "CE_CFG"
  | .irqCfg => "IRQ_CFG"
  | .irqPend => "IRQ_PEND"
  | .tmrCtrl => "TMR_CTRL"
  | .tmrLoad => "TMR_LOAD"
  | .tmrCount => "TMR_COUNT"
  | .tmrIer => "TMR_IER"
  | .tmrSr => "TMR_SR"
  | .dmaSrc n => "DMA_SRC" ++ chanSuffix n
  | .dmaDst n => "DMA_DST" ++ chanSuffix n
  | .dmaCnt n => "DMA_CNT" ++ chanSuffix n
  | .dmaCtrl n => "DMA_CTRL" ++ chanSuffix n
  | .dmaFlags n => "DMA_FLAGS" ++ chanSuffix n
  | .dmaIrq => "DMA_IRQ"
where
  /-- the channel in brackets -/
  chanSuffix : Chan → String
    | .ch0 => "(0)"
    | .ch1 => "(1)"

/-- The line of assembly for a register access: a word access of any register, a byte access of SPI_DR. -/
def asmAccess (c : AccessCode) (n : Nat) (v : Word) : Option String :=
  match regAt (codeOffset c), codeDir c, n with
  | some r, .read, 4 => some ("rd " ++ regName r)
  | some r, .write, 4 => some ("wr " ++ regName r ++ ", " ++ toString v.toNat)
  | some .spiDr, .read, 1 => some "rdb SPI_DR"
  | some .spiDr, .write, 1 => some ("wrb SPI_DR, " ++ toString v.toNat)
  | _, _, _ => none

/-- The line of assembly for an instruction (30_encoding.md R330, decimal numbers), where the syntax has one. -/
def asm (i : Instr) : Option String :=
  let num {w : Nat} (x : BitVec w) : String := toString x.toNat
  match i with
  | .rdb _ _ => some "RDB"
  | .txb b _ _ => some ("TXB " ++ num b)
  | .txp n x y => some ("TXP " ++ num n ++ ", " ++ num x ++ ", " ++ num y)
  | .txd n x y => some ("TXD " ++ num n ++ ", " ++ num x ++ ", " ++ num y)
  | .scs l _ _ => some (if l then "SCS 1" else "SCS 0")
  | .pulse _ _ => some "PULSE"
  | .wreg a b _ _ => some ("WREG " ++ num a ++ ", " ++ num b)
  | .waddr a n x _ => some ("WADDR " ++ num a ++ ", " ++ num n ++ ", " ++ num x)
  | .cmd b _ _ => some ("CMD " ++ num b)
  | .rstat _ _ => some "RSTAT"
  | .send n x _ => some ("SEND " ++ num n ++ ", " ++ num x)
  | .init _ _ => some "INIT"
  | i =>
    match encode i with
    | .rac c n v => asmAccess c n v
    | _ => none

/-! ### The opcode table's words -/

/-- The words of an instruction whose bits, numbered as spec/opcode_table.json numbers them, are `w`.
The table gives an access code 9 bits (two bytes), a descriptor 32 bits, a command byte 8; the operands
outside them are zero (the value and argument words) or the register's own width (the access size, log 20). -/
def tableWords (nbits w : Nat) : Option Words :=
  if nbits = 9 ∨ nbits = 16 then if w < 512 then some (.rac (BitVec.ofNat 9 w) 4 0) else none
  else if nbits = 32 then if w < 2 ^ 32 then some (.desc (BitVec.ofNat 32 w) 0 0) else none
  else if nbits = 8 then if w < 256 then some (.fcb (BitVec.ofNat 8 w)) else none
  else none

/-- The instruction the decoder reads from a table word. -/
def decodeTableWord (nbits w : Nat) : Option Instr :=
  match tableWords nbits w with
  | some ws =>
    match decode ws with
    | .ok i => some i
    | .error _ => none
  | none => none

end Sys2Proof
end

