-- ==== Sys2Proof/Machine/State.lean ====
section
/-! DEFINITION. The state of the block (10_state.md R100), as plain data, the reset state (70_reset_and_hazards.md R700), and the reasons a step can stop. -/

namespace Sys2Proof.Machine

/-! ### Errors and faults of the block (60_exceptions.md R600-R602)

Taking one is a next state: the result code is returned or the block halts (R610). They are not the
`Fault` below, which is the machine's own stop. -/

/-- An abnormal outcome with its information. -/
inductive Abnormal where
  /-- 0x01: SendPayload with n + 1 >= 32 -/
  | payloadTooLarge (n : Nat)
  /-- 0x02: WriteAddressRegister with n > 5 -/
  | addressTooLong (n : Nat)
  /-- 0x03: TransmitDMA while the pending-owner token is held -/
  | transactionInProgress
  /-- 0x04: the notification wait of task `t` timed out -/
  | transferTimedOut (t : Nat)
  /-- 0x05: the notification count `v` was not NOTIFY_EXPECTED -/
  | notificationMismatch (v : Nat)
  /-- 0x06: a length outside the operation's range -/
  | invalidLength (n : Nat)
  /-- 0x07: a device register address above 0x1F -/
  | invalidRegister (reg : Byte)
  /-- 0x08: a descriptor that matches no row -/
  | illegalCommand (desc : Word)
  /-- 0x09: an operation issued while task `u`'s operation is active -/
  | busNotSerialized (u : Nat)
  /-- 0x0A: a timer target above 2^W - 1 -/
  | timerTargetOutOfRange (target : Nat)
  /-- fault 0x80: a task writes SPI_DR while TXE = 0 -/
  | txWriteWhileFull (value : Word)
  /-- fault 0x81: a task reads or writes a byte outside ADMIT -/
  | memoryFault (addr : Word)
  /-- fault 0x82: a task's register access refused by 20_memory.md R212 -/
  | badRegisterAccess (off : Byte)
  /-- fault 0x83: a task reads SPI_DR before any byte was received -/
  | unwrittenRead (off : Byte)
  /-- fault 0x09: a direct register access while task `u`'s operation is active -/
  | accessNotSerialized (u : Nat)
deriving DecidableEq, Repr

/-! ### The data path, the lines, the timer, the channels (10_state.md R110-R130) -/

/-- SPI data path state (R110). -/
structure SpiState where
  txbuf : Byte
  txe : Bool
  shreg : Byte
  bsy : Bool
  rxbuf : Option Byte
  rxne : Bool
  ovr : Bool
  txdmaen : Bool
  rxdmaen : Bool
deriving DecidableEq, Repr

/-- Chip-select state (R115). -/
structure CsState where
  asserted : Bool
deriving DecidableEq, Repr

/-- Chip-enable state (R116). -/
structure CeState where
  level : Bool
  oe : Bool
deriving DecidableEq, Repr

/-- IRQ input state (R117). -/
structure IrqState where
  en : Bool
  falling : Bool
  pullup : Bool
  pend : Bool
  pin : Bool
deriving DecidableEq, Repr

/-- Timer state (R120); `count` and `load` are W-bit values, W a launch parameter, and `mtch` is the
spec's `match`. -/
structure TimerState where
  count : Nat
  running : Bool
  load : Nat
  ovfie : Bool
  ovf : Bool
  mtch : Bool
deriving DecidableEq, Repr

/-- The state of one DMA channel (R130). -/
structure DmaChan where
  src : Word
  dst : Word
  cnt : BitVec 16
  en : Bool
  sinc : Bool
  dinc : Bool
  ie : Bool
  done : Bool
  err : Bool
deriving DecidableEq, Repr

/-! ### The sequencer (10_state.md R102-R107, R140-R143) -/

/-- The step labels of ReadByte (42_spi_transport.md R450). -/
inductive RdbLabel where
  | r0 | r1
deriving DecidableEq, Repr

/-- The step labels of TransmitByte (42_spi_transport.md R452). -/
inductive TxbLabel where
  | b0 | b1 | b2 | b3 | b4 | b5 | b6
deriving DecidableEq, Repr

/-- The step labels of TransmitPolling (42_spi_transport.md R454). -/
inductive TxpLabel where
  | p0 | p1 | p2 | p3 | p4 | p5 | p6 | p7 | p8 | p9 | p10 | p11 | p12
deriving DecidableEq, Repr

/-- The step labels of TransmitDMA (42_spi_transport.md R457) and of its abort (R459). -/
inductive TxdLabel where
  | d0 | d1 | d2 | d3 | d4 | d5 | d6 | d7 | d8 | d9 | d10 | d11
  | d12 | d13 | d14 | d15 | d16 | d17 | d18 | d19 | d20 | d21 | d22 | d23
  | t0 | t1 | t2 | t3 | t4 | t5 | t6 | t7 | t8 | t9 | t10
deriving DecidableEq, Repr

/-- The step labels of TriggerPulse (44_frame_sequencer.md R525). -/
inductive PulseLabel where
  | tp0 | tp1 | tp2 | tp3
deriving DecidableEq, Repr

/-- The step labels of InitIO (44_frame_sequencer.md R551). -/
inductive InitLabel where
  | i0 | i1 | i2
deriving DecidableEq, Repr

/-- An operation and its next step's label: the `OpName x Label` of R105. `scs` is SetChipSelect's one
step S0 (40_chip_select.md R410), `copy i` the step C(i) of a copy phase (44_frame_sequencer.md R521). A
copy phase is no operation of R105; that its step stands here, and is the label its Halt event carries
(60_exceptions.md R611), is log 28. -/
inductive Label where
  | rdb (l : RdbLabel)
  | txb (l : TxbLabel)
  | txp (l : TxpLabel)
  | txd (l : TxdLabel)
  | scs
  | pulse (l : PulseLabel)
  | initIO (l : InitLabel)
  | copy (i : Nat)
deriving DecidableEq, Repr

/-- Where a raise happened: at issue, or at a step of an operation. -/
inductive Place where
  | issue
  | step (l : Label)
deriving DecidableEq, Repr

/-- The source of a copy phase (44_frame_sequencer.md R521). -/
inductive ByteSource where
  | lit (bytes : List Byte)
  | mem (a : Word)
deriving DecidableEq, Repr

/-- The `Locals` of R105: the operands of the operation, its loop index `i`, its saved interrupt enable,
its timer target, the notification value it took, and a copy phase's source and destination (the index of
a copy phase stands in its label: log 28). -/
structure Locals where
  n : Nat := 0
  tx : Word := 0
  rx : Word := 0
  byte : Byte := 0
  level : Bool := false
  i : Nat := 0
  saved : Bool := false
  target : Nat := 0
  value : Nat := 0
  dst : Word := 0
  src : ByteSource := .lit []
deriving DecidableEq, Repr

/-- The base operation being run: its next step label and its locals (R105). -/
structure Cur where
  label : Label
  loc : Locals
deriving DecidableEq, Repr

/-- A base operation with its arguments: the `OpName x Args` of a phase (R105). -/
inductive BaseOp where
  | readByte
  | transmitByte (byte : Byte)
  | transmitPolling (n : Nat) (tx rx : Word)
  | transmitDma (n : Nat) (tx rx : Word)
  | setChipSelect (level : Bool)
  | triggerPulse
  | initIO
deriving DecidableEq, Repr

/-- A phase of an operation (R105). -/
inductive Phase where
  | base (op : BaseOp)
  | copy (dst : Word) (src : ByteSource) (n : Nat)
deriving DecidableEq, Repr

/-- The sequencer context of a task (R105). -/
structure Ctx where
  cur : Option Cur
  phases : List Phase
  top : Option Invocation
deriving DecidableEq, Repr

/-- An idle context (R105). -/
def Ctx.idle : Ctx := ⟨none, [], none⟩

/-- What the state holds for each task: `ctx` (R105), `result` (R102), `notify` (R141), `prog` (R143). -/
structure TaskState where
  ctx : Ctx
  result : Option (Byte × Byte)
  notify : Nat
  prog : List Invocation
deriving DecidableEq, Repr

/-- A task at launch: idle, no result, no notification, its program (70_reset_and_hazards.md R700). -/
def TaskState.launch (prog : List Invocation) : TaskState := ⟨Ctx.idle, none, 0, prog⟩

/-! ### History (10_state.md R160) -/

/-- The events a step makes. -/
inductive Event where
  | issue (t : Nat) (desc argTx argRx : Word)
  | result (t : Nat) (code data : Byte)
  | regAcc (a : Agent) (off : Byte) (size : Nat) (dir : Dir) (value : Word)
  | memRd (a : Agent) (addr : Word) (byte : Byte)
  | memWr (a : Agent) (addr : Word) (byte : Byte)
  | exchange (mosi miso : Byte) (csAsserted : Bool)
  | csChange (asserted : Bool)
  | ceChange (level : Bool)
  | tick (countAfter : Nat)
  | radioIrq
  | timeout (t : Nat)
  | halt (e : Abnormal) (t : Nat) (place : Option Place)
deriving DecidableEq, Repr

/-! ### The state -/

/-- Data memory: the bytes of ADMIT that are not 0x00, addresses strictly rising (20_memory.md R201, log 7). -/
abbrev Memory := List Host.Cell

/-- The inputs still to come (the model's own; log 1, 2, 3): the agents that get the next turns, the
MISO bytes of the next exchanges, the next pin levels, and the count of free values taken once a list is
empty. -/
structure Draws where
  agents : List Agent
  miso : List Byte
  pins : List Bool
  taken : Nat
deriving DecidableEq, Repr

/-- The state record of R100, with the launch parameters `par` (00_scope.md R10) and the model's own
fields `draws` and `curTask` (log 19). `tasks` holds the per-task functions of R100, one entry per task. -/
structure State where
  par : Params
  spi : SpiState
  cs : CsState
  ce : CeState
  irq : IrqState
  tmr : TimerState
  dma0 : DmaChan
  dma1 : DmaChan
  dmairq : Bool
  owner : Option Nat
  active : Option Nat
  tasks : List TaskState
  halted : Option Abnormal
  mem : Memory
  hist : List Event
  draws : Draws
  curTask : Nat
deriving DecidableEq, Repr

/-! ### Stops of the machine -/

/-- Why a step has no next state. -/
inductive Fault where
  /-- Raised by every step and every instruction of a halted state: "In a halted state no agent has an
  enabled step" (60_exceptions.md R611). Safe: the block stops too (log 11). -/
  | halted
deriving DecidableEq, Repr

/-- Why a step has no meaning. -/
inductive Refusal where
  /-- Raised by an arm of `exec` whose instruction has no meaning yet; no arm does. Safe. -/
  | notModelled (mnemonic : String)
  /-- Raised by `step` when the launch parameters are ill-formed: "A launch is refused when"
  (70_reset_and_hazards.md R706; 20_memory.md R202). Safe (log 12). -/
  | illFormedLaunch
deriving DecidableEq, Repr

/-! ### Reset (70_reset_and_hazards.md R700) -/

/-- A stopped channel with every register 0. -/
def DmaChan.reset : DmaChan := ⟨0, 0, 0, false, false, false, false, false, false⟩

/-- The state at launch with the given parameters, memory, programs (one per task), pin level and inputs.
`txbuf` and `shreg` are unspecified at reset and 0x00 here (log 5). -/
def State.launch (par : Params) (mem : Memory) (progs : List (List Invocation)) (pin : Bool)
    (draws : Draws) : State where
  par := par
  spi := ⟨0x00, true, 0x00, false, none, false, false, false, false⟩
  cs := ⟨false⟩
  ce := ⟨false, false⟩
  irq := ⟨false, false, false, false, pin⟩
  tmr := ⟨0, false, 0, false, false, false⟩
  dma0 := DmaChan.reset
  dma1 := DmaChan.reset
  dmairq := false
  owner := none
  active := none
  tasks := progs.map TaskState.launch
  halted := none
  mem := mem
  hist := []
  draws := draws
  curTask := 0

/-- The machine right after reset: the launch of `Params.vectors` (log 6) with memory listing nothing
(log 7), one task with an empty program (log 8), the pin high (log 4) and no input listed. -/
def State.reset : State := State.launch Params.vectors [] [[]] true ⟨[], [], [], 0⟩

end Sys2Proof.Machine
end

