-- ==== Sys2Proof/Machine/Flags.lean ====
section
/-! DEFINITION. Register images and flag rules: how each status, control and flag register reads, and what a write-1-to-clear or write-1-action bit does (00_scope.md R15; 10_state.md R111-R135). -/

namespace Sys2Proof.Machine

/-- `zext_32(b) << i`: a flag at bit `i` of a register image. -/
def bitWord (b : Bool) (i : Nat) : Word := if b then 1#32 <<< i else 0#32

/-- `v[i]`: bit `i` of a written word (00_scope.md R12). -/
def bitOf (v : Word) (i : Nat) : Bool := v.getLsbD i

/-- A write-1-to-clear bit: cleared by writing 1 to it, unchanged by writing 0 (00_scope.md R15). -/
def w1c (v : Word) (i : Nat) (flag : Bool) : Bool := flag && !bitOf v i

/-- `v[7:0]`. -/
def lowByte (v : Word) : Byte := v.extractLsb' 0 8

/-- `zext_32` of a byte. -/
def byteWord (b : Byte) : Word := b.setWidth 32

/-- SPI_SR (42_spi_transport.md R440). -/
def spiSrImage (p : SpiState) : Word :=
  bitWord p.ovr 3 ||| bitWord p.bsy 2 ||| bitWord p.txe 1 ||| bitWord p.rxne 0

/-- SPI_CR (42_spi_transport.md R447). -/
def spiCrImage (p : SpiState) : Word := bitWord p.rxdmaen 1 ||| bitWord p.txdmaen 0

/-- IRQ_CFG (44_frame_sequencer.md R561). -/
def irqCfgImage (q : IrqState) : Word :=
  bitWord q.pullup 2 ||| bitWord q.falling 1 ||| bitWord q.en 0

/-- IRQ_PEND (44_frame_sequencer.md R562). -/
def irqPendImage (q : IrqState) : Word := bitWord q.pin 1 ||| bitWord q.pend 0

/-- TMR_SR (41_timer.md R425). -/
def tmrSrImage (m : TimerState) : Word := bitWord m.mtch 1 ||| bitWord m.ovf 0

/-- TMR_LOAD and TMR_COUNT: the W-bit value, zero-extended (10_state.md R122; log 18 for W above 32). -/
def timerImage (x : Nat) : Word := BitVec.ofNat 32 x

/-- DMA_CNT: the 16-bit count, zero-extended (43_dma_engine.md R480). -/
def dmaCntImage (d : DmaChan) : Word := d.cnt.setWidth 32

/-- DMA_CTRL (43_dma_engine.md R481). -/
def dmaCtrlImage (d : DmaChan) : Word :=
  bitWord d.ie 3 ||| bitWord d.dinc 2 ||| bitWord d.sinc 1 ||| bitWord d.en 0

/-- DMA_FLAGS (43_dma_engine.md R483). -/
def dmaFlagsImage (d : DmaChan) : Word := bitWord d.err 1 ||| bitWord d.done 0

/-- The flags after FINISH: BSY cleared; RXNE set with the received byte, or OVR set and the byte
discarded when RXNE was set (42_spi_transport.md R445). -/
def finishFlags (p : SpiState) (m : Byte) : SpiState :=
  if p.rxne then { p with bsy := false, ovr := true }
  else { p with bsy := false, rxbuf := some m, rxne := true }

/-- The flags after START: TXE and BSY set (42_spi_transport.md R444). -/
def startFlags (p : SpiState) : SpiState := { p with shreg := p.txbuf, txe := true, bsy := true }

/-- The timer after one tick: OVF on a wrap, MATCH when the count becomes the load value
(41_timer.md R426). -/
def tickTimer (w : Nat) (m : TimerState) : TimerState :=
  let c := (m.count + 1) % 2 ^ w
  { m with count := c, ovf := m.ovf || c == 0, mtch := m.mtch || c == m.load }

/-- The IRQ input after the pin takes level `p`: a configured edge sets PEND (44_frame_sequencer.md R560). -/
def irqEdge (q : IrqState) (p : Bool) : IrqState :=
  { q with
    pin := p
    pend := q.pend || (q.en && q.falling && q.pin && !p) || (q.en && !q.falling && !q.pin && p) }

end Sys2Proof.Machine
end

