-- ==== Sys2Proof/Machine/Operands.lean ====
section
/-! DEFINITION. Operand assembly and address arithmetic: descriptor operands (30_encoding.md R311), command bytes (R321), timer targets (41_timer.md R428), address ranges (20_memory.md R200-R202) and the arithmetic of 44_frame_sequencer.md R569. -/

namespace Sys2Proof.Machine

/-- A length operand `n = LEN`: the field as an unsigned number (30_encoding.md R311). -/
def lenOf (len : Byte) : Nat := len.toNat

/-- `(a + i) mod 2^32` (20_memory.md R200; 44_frame_sequencer.md R569). -/
def addrAdd (a : Word) (i : Nat) : Word := a + BitVec.ofNat 32 i

/-- `wreg(reg) = 0x20 | reg` (30_encoding.md R321). -/
def wregByte (reg : Byte) : Byte := 0x20#8 ||| reg

/-- The nominal duration of `n` bytes: `n * TPB` on the unbounded naturals (00_scope.md R11). -/
def timerTarget (p : Params) (n : Nat) : Nat := n * p.timePerByte

/-- A timer target the counter can reach: `T <= 2^W - 1` (41_timer.md R428). -/
def targetOk (p : Params) (target : Nat) : Bool := target ≤ 2 ^ p.timerWidth - 1

/-- A transport length: 1 to MAX_FRAME (42_spi_transport.md R454, R457). -/
def frameLenOk (n : Nat) : Bool := 1 ≤ n && n ≤ Config.maxFrame

/-- The address lies in a range. -/
def inRange (r : Range) (a : Nat) : Bool := r.base ≤ a && a < r.base + r.size

/-- The address is in ADMIT (20_memory.md R201). -/
def admitted (p : Params) (a : Word) : Bool := p.admitRanges.any fun r => inRange r a.toNat

/-- The offset of an address from BLOCK_BASE, modulo 2^32. -/
def windowOffset (p : Params) (a : Word) : Nat := (a - p.blockBase).toNat

/-- The address is in the register window, BLOCK_BASE .. BLOCK_BASE + 0xFF (20_memory.md R200). -/
def inWindow (p : Params) (a : Word) : Bool := windowOffset p a < Config.windowSize

/-- The value an access of `n` bytes moves: a byte access moves bits 7:0 (20_memory.md R211; log 14). -/
def accessValue (n : Nat) (v : Word) : Word := if n = 1 then v &&& 0xFF#32 else v

/-- A range that meets the register window (20_memory.md R202). -/
def meetsWindow (p : Params) (r : Range) : Bool :=
  r.size ≠ 0 && r.base < p.blockBase.toNat + Config.windowSize && p.blockBase.toNat < r.base + r.size

/-- The two scratch frame buffers overlap (70_reset_and_hazards.md R706). -/
def framesOverlap (p : Params) : Bool :=
  (p.frameRxBase - p.frameTxBase).toNat < Config.frameSize ||
    (p.frameTxBase - p.frameRxBase).toNat < Config.frameSize

/-- The parameters of a well-formed launch with `tasks` tasks: none of the conditions of
70_reset_and_hazards.md R706 holds (a retry byte above 255 and an unknown policy, model or pace are
excluded by the parameters' types). -/
def launchOk (p : Params) (tasks : Nat) : Bool :=
  1 ≤ tasks && 8 ≤ p.timerWidth && 1 ≤ p.timePerByte && p.blockBase.toNat % Config.windowSize == 0 &&
    !(p.admitRanges.any (meetsWindow p)) && !framesOverlap p && p.initRfCh.toNat ≤ 127 &&
    p.initAddr.length == 5

end Sys2Proof.Machine
end

