-- ==== Sys2Proof/Machine/Ops.lean ====
section
/-! DEFINITION. The named operations over the state: field updates, the history, data memory, the per-task fields, the drawn inputs, taking an error or fault (60_exceptions.md R610, R611) and the return of an operation (10_state.md R107). -/

namespace Sys2Proof.Machine

/-! ### Field updates -/

/-- `emit ev`: append an event to the history (00_scope.md R13). -/
def State.emit (s : State) (e : Event) : State := { s with hist := s.hist ++ [e] }

/-- Replaces the SPI data path. -/
def State.setSpi (s : State) (p : SpiState) : State := { s with spi := p }

/-- Replaces the chip-select state. -/
def State.setCs (s : State) (c : CsState) : State := { s with cs := c }

/-- Replaces the chip-enable state. -/
def State.setCe (s : State) (c : CeState) : State := { s with ce := c }

/-- Replaces the IRQ input state. -/
def State.setIrq (s : State) (q : IrqState) : State := { s with irq := q }

/-- Replaces the timer state. -/
def State.setTmr (s : State) (m : TimerState) : State := { s with tmr := m }

/-- `dma[n]`. -/
def State.dma (s : State) : Chan → DmaChan
  | .ch0 => s.dma0
  | .ch1 => s.dma1

/-- Replaces `dma[n]`. -/
def State.setDma (s : State) (n : Chan) (d : DmaChan) : State :=
  match n with
  | .ch0 => { s with dma0 := d }
  | .ch1 => { s with dma1 := d }

/-- `dmairq <- b`. -/
def State.setDmairq (s : State) (b : Bool) : State := { s with dmairq := b }

/-- `owner <- o`. -/
def State.setOwner (s : State) (o : Option Nat) : State := { s with owner := o }

/-- `active <- a`. -/
def State.setActive (s : State) (a : Option Nat) : State := { s with active := a }

/-- `halted <- h`. -/
def State.setHalted (s : State) (h : Option Abnormal) : State := { s with halted := h }

/-- Replaces data memory. -/
def State.setMem (s : State) (m : Memory) : State := { s with mem := m }

/-- Replaces the inputs still to come. -/
def State.setDraws (s : State) (d : Draws) : State := { s with draws := d }

/-- Makes task `t` the current agent of register and memory accesses (00_scope.md R13; log 19). -/
def State.setCurTask (s : State) (t : Nat) : State := { s with curTask := t }

/-! ### The per-task fields (log 17) -/

/-- The fields of task `t`; a number that is no task's has the fields of an idle task with no program. -/
def State.taskAt (s : State) (t : Nat) : TaskState := (s.tasks[t]?).getD (TaskState.launch [])

/-- Replaces the fields of task `t`. -/
def State.setTask (s : State) (t : Nat) (k : TaskState) : State := { s with tasks := s.tasks.set t k }

/-- `ctx[t] <- c`. -/
def State.setCtx (s : State) (t : Nat) (c : Ctx) : State := s.setTask t { s.taskAt t with ctx := c }

/-- `result[t] <- (code, data)`. -/
def State.setResult (s : State) (t : Nat) (code data : Byte) : State :=
  s.setTask t { s.taskAt t with result := some (code, data) }

/-- `notify[t] <- v`. -/
def State.setNotify (s : State) (t : Nat) (v : Nat) : State := s.setTask t { s.taskAt t with notify := v }

/-- `prog[t] <- p`. -/
def State.setProg (s : State) (t : Nat) (p : List Invocation) : State :=
  s.setTask t { s.taskAt t with prog := p }

/-! ### Data memory (20_memory.md R201, R205, R206; log 7) -/

/-- What an address that memory does not list reads as. -/
def memDefault : Byte := 0x00#8

/-- The byte at an address. -/
def memGet : Memory → Nat → Byte
  | [], _ => memDefault
  | (k, b) :: r, a => if k = a then b else memGet r a

/-- Memory with the byte at an address replaced, in canonical form. -/
def memPut : Memory → Nat → Byte → Memory
  | [], a, b => if b = memDefault then [] else [(a, b)]
  | (k, c) :: r, a, b =>
    if a < k then if b = memDefault then (k, c) :: r else (a, b) :: (k, c) :: r
    else if a = k then if b = memDefault then r else (a, b) :: r
    else (k, c) :: memPut r a b

/-- Canonical form from address `lo` on: addresses strictly rising, at least `lo`, inside the address
space, and no entry equal to what an unlisted address reads as. -/
def memWfFrom : Nat → Memory → Bool
  | _, [] => true
  | lo, (k, b) :: r => decide (lo ≤ k) && decide (k < 2 ^ 32) && decide (b ≠ memDefault) && memWfFrom (k + 1) r

/-- Memory is in canonical form. -/
def memWf (m : Memory) : Bool := memWfFrom 0 m

/-- `MemRead(addr, 1)` by agent `a` where it is admitted; `none` is the agent's access error
(20_memory.md R205). -/
def memRead (a : Agent) (addr : Word) (s : State) : Option (Byte × State) :=
  if admitted s.par addr then
    some (memGet s.mem addr.toNat, s.emit (.memRd a addr (memGet s.mem addr.toNat)))
  else none

/-- `MemWrite(addr, 1, v)` by agent `a` where it is admitted; `none` is the agent's access error
(20_memory.md R206). -/
def memWrite (a : Agent) (addr : Word) (v : Byte) (s : State) : Option State :=
  if admitted s.par addr then
    some ((s.setMem (memPut s.mem addr.toNat v)).emit (.memWr a addr v))
  else none

/-! ### Drawn inputs (log 1, 2, 3) -/

/-- `draw m`: the MISO byte of an exchange (42_spi_transport.md R446). -/
def drawMiso (s : State) : Byte × State :=
  match s.draws.miso with
  | m :: r => (m, s.setDraws { s.draws with miso := r })
  | [] => (Config.freeMiso s.draws.taken, s.setDraws { s.draws with taken := s.draws.taken + 1 })

/-- `draw p`: the next level of the IRQ pin (44_frame_sequencer.md R560). -/
def drawPin (s : State) : Bool × State :=
  match s.draws.pins with
  | p :: r => (p, s.setDraws { s.draws with pins := r })
  | [] => (Config.freePin s.draws.taken, s.setDraws { s.draws with taken := s.draws.taken + 1 })

/-- The agent that gets the next turn (00_scope.md R18: any agent may). -/
def drawAgent (s : State) : Agent × State :=
  match s.draws.agents with
  | a :: r => (a, s.setDraws { s.draws with agents := r })
  | [] => (Config.freeAgent s.draws.taken, s.setDraws { s.draws with taken := s.draws.taken + 1 })

/-! ### Errors and faults (60_exceptions.md R600-R602) -/

/-- OK, the result code of an operation that completed (R601). -/
def codeOk : Byte := 0x00#8

/-- The code of an abnormal outcome (R601, R602). -/
def abnormalCode : Abnormal → Byte
  | .payloadTooLarge _ => 0x01#8
  | .addressTooLong _ => 0x02#8
  | .transactionInProgress => 0x03#8
  | .transferTimedOut _ => 0x04#8
  | .notificationMismatch _ => 0x05#8
  | .invalidLength _ => 0x06#8
  | .invalidRegister _ => 0x07#8
  | .illegalCommand _ => 0x08#8
  | .busNotSerialized _ => 0x09#8
  | .timerTargetOutOfRange _ => 0x0A#8
  | .txWriteWhileFull _ => 0x80#8
  | .memoryFault _ => 0x81#8
  | .badRegisterAccess _ => 0x82#8
  | .unwrittenRead _ => 0x83#8
  | .accessNotSerialized _ => 0x09#8

/-- A fault halts under both policies; an error follows ERROR_POLICY (R600). -/
def isFault : Abnormal → Bool
  | .payloadTooLarge _ => false
  | .addressTooLong _ => false
  | .transactionInProgress => false
  | .transferTimedOut _ => false
  | .notificationMismatch _ => false
  | .invalidLength _ => false
  | .invalidRegister _ => false
  | .illegalCommand _ => false
  | .busNotSerialized _ => false
  | .timerTargetOutOfRange _ => false
  | .txWriteWhileFull _ => true
  | .memoryFault _ => true
  | .badRegisterAccess _ => true
  | .unwrittenRead _ => true
  | .accessNotSerialized _ => true

/-- Halt: `halted <- some E`, and the Halt event with the raising task and its place (R611). -/
def haltWith (t : Nat) (place : Option Place) (e : Abnormal) (s : State) : State :=
  (s.setHalted (some e)).emit (.halt e t place)

/-- The end of task `t`'s operation: the result, an idle context, no active task, the Result event
(10_state.md R107; 60_exceptions.md R610). -/
def complete (t : Nat) (code data : Byte) (s : State) : State :=
  (((s.setResult t code data).setCtx t Ctx.idle).setActive none).emit (.result t code data)

/-- An error returned at issue: the result and the Result event; `active` and `ctx[t]` stay (R603, R610). -/
def reportAtIssue (t : Nat) (code : Byte) (s : State) : State :=
  (s.setResult t code 0x00#8).emit (.result t code 0x00#8)

/-- `raise E(info)` by a step of task `t`, the one way an error or a fault is taken (R610): a fault, or an
error under ERROR_POLICY = fatal, halts; an error under report ends the operation, dropping the phases
that remain, with the error's code as its result. -/
def raise (t : Nat) (place : Option Place) (e : Abnormal) (s : State) : State :=
  if isFault e || s.par.errorPolicy == .fatal then haltWith t place e s
  else
    match place with
    | some (.step _) => complete t (abnormalCode e) 0x00#8 s
    | _ => reportAtIssue t (abnormalCode e) s

/-! ### Starting and returning from an operation (10_state.md R105-R107) -/

/-- The first step of a base operation, with its arguments as locals. -/
def firstStep : BaseOp → Cur
  | .readByte => ⟨.rdb .r0, {}⟩
  | .transmitByte b => ⟨.txb .b0, { byte := b }⟩
  | .transmitPolling n tx rx => ⟨.txp .p0, { n := n, tx := tx, rx := rx }⟩
  | .transmitDma n tx rx => ⟨.txd .d0, { n := n, tx := tx, rx := rx }⟩
  | .setChipSelect l => ⟨.scs, { level := l }⟩
  | .triggerPulse => ⟨.pulse .tp0, {}⟩
  | .initIO => ⟨.initIO .i0, {}⟩

/-- Starts the next phase of task `t`, or ends its operation with (code, data) when no phase remains. A
copy phase of no byte has no step: it ends at once, as a return of (OK, 0x00) does
(44_frame_sequencer.md R521). -/
def startPhases (t : Nat) (ps : List Phase) (top : Option Invocation) (code data : Byte) (s : State) :
    State :=
  match ps with
  | [] => complete t code data s
  | .base op :: rest => s.setCtx t ⟨some (firstStep op), rest, top⟩
  | .copy _ _ 0 :: rest => startPhases t rest top codeOk 0x00#8 s
  | .copy dst src (n + 1) :: rest =>
    s.setCtx t ⟨some ⟨.copy 0, { n := n + 1, dst := dst, src := src }⟩, rest, top⟩

/-- `return (code, data)` from a base operation or a copy phase of task `t` (10_state.md R107). -/
def returnOp (t : Nat) (code data : Byte) (s : State) : State :=
  startPhases t (s.taskAt t).ctx.phases (s.taskAt t).ctx.top code data s

/-- `goto l` with the given locals: task `t`'s next step is the one labelled `l` (10_state.md R106). -/
def gotoStep (t : Nat) (l : Label) (loc : Locals) (s : State) : State :=
  s.setCtx t { (s.taskAt t).ctx with cur := some ⟨l, loc⟩ }

/-! ### What an access of a task answers -/

/-- An action of a task inside a step: done, with its value, or a raise, with the state it left. -/
inductive Did (α : Type) where
  | ok (a : α) (s : State)
  | raised (e : Abnormal) (s : State)

/-- `MemRead` by task `t`: a byte outside ADMIT raises MemoryFault (20_memory.md R205). -/
def taskMemRead (t : Nat) (addr : Word) (s : State) : Did Byte :=
  match memRead (.task t) addr s with
  | some (v, s') => .ok v s'
  | none => .raised (.memoryFault addr) s

/-- `MemWrite` by task `t`: a byte outside ADMIT raises MemoryFault (20_memory.md R206). -/
def taskMemWrite (t : Nat) (addr : Word) (v : Byte) (s : State) : Did Unit :=
  match memWrite (.task t) addr v s with
  | some s' => .ok () s'
  | none => .raised (.memoryFault addr) s

end Sys2Proof.Machine
end

