-- ==== Sys2Proof/Machine/ChipSelect.lean ====
section
/-! DEFINITION. The chip-select and chip-enable outputs: the effects of their registers and the levels of their lines (40_chip_select.md R400-R408). -/

namespace Sys2Proof.Machine

/-- WR_CS_SET: bit 0 asserts CS; an asserted CS emits nothing (R400, 10_state.md R161). -/
def writeCsSet (v : Word) (s : State) : State :=
  if bitOf v 0 && !s.cs.asserted then (s.setCs ⟨true⟩).emit (.csChange true) else s

/-- WR_CS_CLR: bit 0 deasserts CS (R401). -/
def writeCsClr (v : Word) (s : State) : State :=
  if bitOf v 0 && s.cs.asserted then (s.setCs ⟨false⟩).emit (.csChange false) else s

/-- RD_CS_SET and RD_CS_CLR: 0 (R402). -/
def readActionReg : Word := 0#32

/-- RD_CS_STATE (R402). -/
def readCsState (s : State) : Word := bitWord s.cs.asserted 0

/-- WR_CE_SET: bit 0 raises `ce.level`, whatever `ce.oe` is (R404). -/
def writeCeSet (v : Word) (s : State) : State :=
  if bitOf v 0 && !s.ce.level then (s.setCe { s.ce with level := true }).emit (.ceChange true) else s

/-- WR_CE_CLR: bit 0 lowers `ce.level` (R405). -/
def writeCeClr (v : Word) (s : State) : State :=
  if bitOf v 0 && s.ce.level then (s.setCe { s.ce with level := false }).emit (.ceChange false) else s

/-- RD_CE_STATE (R407). -/
def readCeState (s : State) : Word := bitWord s.ce.level 0

/-- RD_CE_CFG (R406). -/
def readCeCfg (s : State) : Word := bitWord s.ce.oe 0

/-- WR_CE_CFG: bit 0 is OE (R406). -/
def writeCeCfg (v : Word) (s : State) : State := s.setCe { s.ce with oe := bitOf v 0 }

/-- The electrical level of the CS line: high when `cs.asserted = CS_ACTIVE_HIGH` (R403). -/
def csLine (s : State) : Bool := s.cs.asserted == s.par.csActiveHigh

/-- The level the block drives on the CE line; `none` while OE = 0 and the line is not driven (R406, R408). -/
def ceLine (s : State) : Option Bool := if s.ce.oe then some s.ce.level else none

end Sys2Proof.Machine
end

