-- ==== Sys2Proof/Machine/Dma.lean ====
section
/-! DEFINITION. The DMA channels: the effects of their registers (43_dma_engine.md R480-R483, R489), completion (R487) and the access error (R488). -/

namespace Sys2Proof.Machine

/-- RD_DMA_SRC: the current source address (R480, 10_state.md R132). -/
def readDmaSrc (n : Chan) (s : State) : Word := (s.dma n).src

/-- WR_DMA_SRC (R480). -/
def writeDmaSrc (n : Chan) (v : Word) (s : State) : State := s.setDma n { s.dma n with src := v }

/-- RD_DMA_DST (R480). -/
def readDmaDst (n : Chan) (s : State) : Word := (s.dma n).dst

/-- WR_DMA_DST (R480). -/
def writeDmaDst (n : Chan) (v : Word) (s : State) : State := s.setDma n { s.dma n with dst := v }

/-- RD_DMA_CNT (R480). -/
def readDmaCnt (n : Chan) (s : State) : Word := dmaCntImage (s.dma n)

/-- WR_DMA_CNT: bits 15:0 (R480). -/
def writeDmaCnt (n : Chan) (v : Word) (s : State) : State :=
  s.setDma n { s.dma n with cnt := v.extractLsb' 0 16 }

/-- RD_DMA_CTRL (R481). -/
def readDmaCtrl (n : Chan) (s : State) : Word := dmaCtrlImage (s.dma n)

/-- Completion `complete(n)`: DONE set, EN cleared, the DMA-complete request raised if IE is set (R487). -/
def dmaComplete (n : Chan) (s : State) : State :=
  (s.setDma n { s.dma n with done := true, en := false }).setDmairq (s.dmairq || (s.dma n).ie)

/-- WR_DMA_CTRL's configuration part: SINC, DINC and IE of a stopped channel (R482). -/
def dmaConfigure (v : Word) (d : DmaChan) : DmaChan :=
  if d.en then d else { d with sinc := bitOf v 1, dinc := bitOf v 2, ie := bitOf v 3 }

/-- WR_DMA_CTRL (R482): configures a stopped channel, then starts it if EN is written 1 (a count of 0
completes at once and EN stays 0); EN written 0 stops a running channel and does not set DONE. -/
def writeDmaCtrl (n : Chan) (v : Word) (s : State) : State :=
  let d := dmaConfigure v (s.dma n)
  if d.en then s.setDma n { d with en := bitOf v 0 }
  else if bitOf v 0 then
    if d.cnt = 0 then dmaComplete n (s.setDma n d) else s.setDma n { d with en := true }
  else s.setDma n d

/-- A write of WR_DMA_CTRL that is refused: it would change SINC, DINC or IE of a running channel
(R482, 20_memory.md R212 check 4). -/
def dmaCtrlChanges (v : Word) (d : DmaChan) : Bool :=
  bitOf v 1 != d.sinc || bitOf v 2 != d.dinc || bitOf v 3 != d.ie

/-- RD_DMA_FLAGS (R483). -/
def readDmaFlags (n : Chan) (s : State) : Word := dmaFlagsImage (s.dma n)

/-- WR_DMA_FLAGS: bit 0 clears DONE, bit 1 clears ERR (R483). -/
def writeDmaFlags (n : Chan) (v : Word) (s : State) : State :=
  s.setDma n { s.dma n with done := w1c v 0 (s.dma n).done, err := w1c v 1 (s.dma n).err }

/-- RD_DMA_IRQ (R489). -/
def readDmaIrq (s : State) : Word := bitWord s.dmairq 0

/-- WR_DMA_IRQ: bit 0 clears the request (R489). -/
def writeDmaIrq (v : Word) (s : State) : State := s.setDmairq (w1c v 0 s.dmairq)

/-- `dma-access-error(n)`: ERR set and EN cleared, nothing else (R488). -/
def dmaAccessError (n : Chan) (s : State) : State := s.setDma n { s.dma n with err := true, en := false }

end Sys2Proof.Machine
end

