-- ==== Sys2Proof/Machine/Irq.lean ====
section
/-! DEFINITION. The IRQ input: the device's pin step and the effects of its registers (44_frame_sequencer.md R560-R562). -/

namespace Sys2Proof.Machine

/-- RD_IRQ_CFG (R561). -/
def readIrqCfg (s : State) : Word := irqCfgImage s.irq

/-- WR_IRQ_CFG: bit 0 EN, bit 1 FALLING, bit 2 PULLUP; PEND is not changed (R561). -/
def writeIrqCfg (v : Word) (s : State) : State :=
  s.setIrq { s.irq with en := bitOf v 0, falling := bitOf v 1, pullup := bitOf v 2 }

/-- RD_IRQ_PEND (R562). -/
def readIrqPend (s : State) : Word := irqPendImage s.irq

/-- WR_IRQ_PEND: bit 0 clears PEND; PIN is read-only (R562). -/
def writeIrqPend (v : Word) (s : State) : State := s.setIrq { s.irq with pend := w1c v 0 s.irq.pend }

/-- The device's pin step: the pin takes a drawn level, and a configured edge sets PEND (R560). -/
def pinStep (s : State) : State := (drawPin s).2.setIrq (irqEdge s.irq (drawPin s).1)

end Sys2Proof.Machine
end

