-- ==== Sys2Proof/Machine/Spi.lean ====
section
/-! DEFINITION. The SPI data path: the effects of its registers (42_spi_transport.md R440-R443, R447) and the shift engine (R444, R445). -/

namespace Sys2Proof.Machine

/-- RD_SPI_SR: the flags, no side effect (R440). -/
def readSpiSr (s : State) : Word := spiSrImage s.spi

/-- RD_SPI_DR: the receive buffer, RXNE cleared; `none` before the first byte was received (R441). -/
def readSpiDr (s : State) : Option (Word × State) :=
  match s.spi.rxbuf with
  | some b => some (byteWord b, s.setSpi { s.spi with rxne := false })
  | none => none

/-- WR_SPI_DR: fills the holding buffer and clears TXE; `none` while TXE = 0 (R442). -/
def writeSpiDr (v : Word) (s : State) : Option State :=
  if s.spi.txe then some (s.setSpi { s.spi with txbuf := lowByte v, txe := false }) else none

/-- WR_SPI_SR: bit 3 clears OVR; RXNE, TXE and BSY are read-only (R443). -/
def writeSpiSr (v : Word) (s : State) : State := s.setSpi { s.spi with ovr := w1c v 3 s.spi.ovr }

/-- RD_SPI_CR: the DMA request enables (R447). -/
def readSpiCr (s : State) : Word := spiCrImage s.spi

/-- WR_SPI_CR: bit 0 TXDMAEN, bit 1 RXDMAEN (R447). -/
def writeSpiCr (v : Word) (s : State) : State :=
  s.setSpi { s.spi with txdmaen := bitOf v 0, rxdmaen := bitOf v 1 }

/-- Channel 0's request line (43_dma_engine.md R484). -/
def req0 (p : SpiState) : Bool := p.txdmaen && p.txe

/-- Channel 1's request line (43_dma_engine.md R485). -/
def req1 (p : SpiState) : Bool := p.rxdmaen && p.rxne

/-- START is enabled (R444; `halted = none` is checked for every agent at once). -/
def startEnabled (s : State) : Bool := !s.spi.txe && !s.spi.bsy

/-- START: the holding byte enters the shift register (R444). -/
def spiStart (s : State) : State := s.setSpi (startFlags s.spi)

/-- RX_PACE holds FINISH while the receive channel has a byte to fetch (R445). -/
def paceHolds (s : State) : Bool := s.par.rxPace && s.spi.rxne && s.spi.rxdmaen && s.dma1.en && s.dma1.cnt != 0

/-- FINISH is enabled (R445). -/
def finishEnabled (s : State) : Bool := s.spi.bsy && !paceHolds s

/-- FINISH for the byte `mosi`: one full-duplex exchange with a drawn MISO byte (R445, R446). -/
def exchange (mosi : Byte) (s : State) : State :=
  let m := (drawMiso s).1
  ((drawMiso s).2.emit (.exchange mosi m s.cs.asserted)).setSpi (finishFlags s.spi m)

end Sys2Proof.Machine
end

