-- ==== Sys2Proof/Machine/Timer.lean ====
section
/-! DEFINITION. The Timer Service: the effects of its registers (41_timer.md R420-R425), its tick (R426) and its interrupt line (R427). -/

namespace Sys2Proof.Machine

/-- WR_TMR_CTRL, in the order of R420: RESET clears the count, START clears it and runs, STOP stops. -/
def writeTmrCtrl (v : Word) (s : State) : State :=
  s.setTmr { s.tmr with
    count := if bitOf v 2 || bitOf v 0 then 0 else s.tmr.count
    running := (s.tmr.running || bitOf v 0) && !bitOf v 1 }

/-- RD_TMR_CTRL: RUNNING (R421). -/
def readTmrCtrl (s : State) : Word := bitWord s.tmr.running 0

/-- RD_TMR_LOAD (R422). -/
def readTmrLoad (s : State) : Word := timerImage s.tmr.load

/-- WR_TMR_LOAD: `v[W-1:0]` (R422). -/
def writeTmrLoad (v : Word) (s : State) : State :=
  s.setTmr { s.tmr with load := v.toNat % 2 ^ s.par.timerWidth }

/-- RD_TMR_COUNT (R423). -/
def readTmrCount (s : State) : Word := timerImage s.tmr.count

/-- RD_TMR_IER (R424). -/
def readTmrIer (s : State) : Word := bitWord s.tmr.ovfie 0

/-- WR_TMR_IER: bit 0 is OVFIE (R424). -/
def writeTmrIer (v : Word) (s : State) : State := s.setTmr { s.tmr with ovfie := bitOf v 0 }

/-- RD_TMR_SR (R425). -/
def readTmrSr (s : State) : Word := tmrSrImage s.tmr

/-- WR_TMR_SR: bit 0 clears OVF, bit 1 clears MATCH (R425). -/
def writeTmrSr (v : Word) (s : State) : State :=
  s.setTmr { s.tmr with ovf := w1c v 0 s.tmr.ovf, mtch := w1c v 1 s.tmr.mtch }

/-- Tick (R426). -/
def tick (s : State) : State :=
  (s.setTmr (tickTimer s.par.timerWidth s.tmr)).emit (.tick ((s.tmr.count + 1) % 2 ^ s.par.timerWidth))

/-- The timer interrupt line (R427; 10_state.md R124). -/
def timerLine (s : State) : Bool := s.tmr.ovf && s.tmr.ovfie

/-- The timer-overflow handler, outside the block: clears OVF and nothing else the block sees (R427). -/
def ovfHandlerStep (s : State) : State := s.setTmr { s.tmr with ovf := false }

end Sys2Proof.Machine
end

