-- ==== Sys2Proof/Machine/Regs.lean ====
section
/-! DEFINITION. `RegRead` and `RegWrite` (20_memory.md R210): the checks of a task's access (R212), a handler's access, a DMA channel's byte access (R213), the transfer step of a channel (43_dma_engine.md R486), and a task's direct access (60_exceptions.md R604, R606). -/

namespace Sys2Proof.Machine

/-- The value and the side effect of reading a register; `none` is SPI_DR with nothing received. -/
def readReg (r : Reg) (s : State) : Option (Word × State) :=
  match r with
  | .spiDr => readSpiDr s
  | .spiSr => some (readSpiSr s, s)
  | .spiCr => some (readSpiCr s, s)
  | .csSet => some (readActionReg, s)
  | .csClr => some (readActionReg, s)
  | .csState => some (readCsState s, s)
  | .ceSet => some (readActionReg, s)
  | .ceClr => some (readActionReg, s)
  | .ceState => some (readCeState s, s)
  | .ceCfg => some (readCeCfg s, s)
  | .irqCfg => some (readIrqCfg s, s)
  | .irqPend => some (readIrqPend s, s)
  | .tmrCtrl => some (readTmrCtrl s, s)
  | .tmrLoad => some (readTmrLoad s, s)
  | .tmrCount => some (readTmrCount s, s)
  | .tmrIer => some (readTmrIer s, s)
  | .tmrSr => some (readTmrSr s, s)
  | .dmaSrc n => some (readDmaSrc n s, s)
  | .dmaDst n => some (readDmaDst n s, s)
  | .dmaCnt n => some (readDmaCnt n s, s)
  | .dmaCtrl n => some (readDmaCtrl n s, s)
  | .dmaFlags n => some (readDmaFlags n s, s)
  | .dmaIrq => some (readDmaIrq s, s)

/-- The effect of writing a register; `none` is SPI_DR with TXE = 0. The three read-only registers are
refused before their effect (R212 check 3) and have none. -/
def writeReg (r : Reg) (v : Word) (s : State) : Option State :=
  match r with
  | .spiDr => writeSpiDr v s
  | .spiSr => some (writeSpiSr v s)
  | .spiCr => some (writeSpiCr v s)
  | .csSet => some (writeCsSet v s)
  | .csClr => some (writeCsClr v s)
  | .csState => some s
  | .ceSet => some (writeCeSet v s)
  | .ceClr => some (writeCeClr v s)
  | .ceState => some s
  | .ceCfg => some (writeCeCfg v s)
  | .irqCfg => some (writeIrqCfg v s)
  | .irqPend => some (writeIrqPend v s)
  | .tmrCtrl => some (writeTmrCtrl v s)
  | .tmrLoad => some (writeTmrLoad v s)
  | .tmrCount => some s
  | .tmrIer => some (writeTmrIer v s)
  | .tmrSr => some (writeTmrSr v s)
  | .dmaSrc n => some (writeDmaSrc n v s)
  | .dmaDst n => some (writeDmaDst n v s)
  | .dmaCnt n => some (writeDmaCnt n v s)
  | .dmaCtrl n => some (writeDmaCtrl n v s)
  | .dmaFlags n => some (writeDmaFlags n v s)
  | .dmaIrq => some (writeDmaIrq v s)

/-! ### The checks of R212 -/

/-- Check 2: a word access, or a byte access of SPI_DR (every assigned offset is a multiple of 4). -/
def regSizeOk (r : Reg) (n : Nat) : Bool := n == 4 || (n == 1 && r == .spiDr)

/-- Check 3: the read-only registers. -/
def regReadOnly (r : Reg) : Bool := r == .csState || r == .ceState || r == .tmrCount

/-- Check 4: a configuration write of a running channel. -/
def regDmaBusy (r : Reg) (v : Word) (s : State) : Bool :=
  match r with
  | .dmaSrc n => (s.dma n).en
  | .dmaDst n => (s.dma n).en
  | .dmaCnt n => (s.dma n).en
  | .dmaCtrl n => (s.dma n).en && dmaCtrlChanges v (s.dma n)
  | _ => false

/-- A task's write passes the four checks. -/
def regWriteOk (r : Reg) (n : Nat) (v : Word) (s : State) : Bool :=
  regSizeOk r n && !regReadOnly r && !regDmaBusy r v s

/-! ### Admitted accesses (R210) -/

/-- An admitted read by agent `a`: the register's effect, and the RegAcc event with the value read. -/
def regReadBy (a : Agent) (r : Reg) (n : Nat) (s : State) : Option (Word × State) :=
  match readReg r s with
  | some (v, s') => some (v, s'.emit (.regAcc a (regOffset r) n .read v))
  | none => none

/-- An admitted write by agent `a`: the RegAcc event with the value written, then the register's effect
(the order of 95_test_vectors.md V7-1 item 4; log 13). -/
def regWriteBy (a : Agent) (r : Reg) (n : Nat) (v : Word) (s : State) : Option State :=
  writeReg r v (s.emit (.regAcc a (regOffset r) n .write (accessValue n v)))

/-- `RegRead(off, n)` by task `t` (R210, R212; UnwrittenRead of 42_spi_transport.md R441). -/
def taskRead (t : Nat) (r : Reg) (n : Nat) (s : State) : Did Word :=
  if regSizeOk r n then
    match regReadBy (.task t) r n s with
    | some (v, s') => .ok v s'
    | none => .raised (.unwrittenRead (regOffset r)) s
  else .raised (.badRegisterAccess (regOffset r)) s

/-- `RegWrite(off, n, v)` by task `t` (R210, R212; TxWriteWhileFull of 42_spi_transport.md R442). -/
def taskWrite (t : Nat) (r : Reg) (n : Nat) (v : Word) (s : State) : Did Unit :=
  if regWriteOk r n v s then
    match regWriteBy (.task t) r n v s with
    | some s' => .ok () s'
    | none => .raised (.txWriteWhileFull (accessValue n v)) s
  else .raised (.badRegisterAccess (regOffset r)) s

/-- A handler's `RegWrite`: handlers are neither tasks nor channels, so no check applies (R210, 60_exceptions.md R604). -/
def handlerWrite (a : Agent) (r : Reg) (v : Word) (s : State) : State :=
  (regWriteBy a r 4 v s).getD s

/-! ### A DMA channel's accesses and transfer (20_memory.md R213; 43_dma_engine.md R486) -/

/-- A channel's byte read: of SPI_DR at BLOCK_BASE, of admitted memory, else an access error. -/
def dmaReadByte (n : Chan) (a : Word) (s : State) : Option (Byte × State) :=
  if inWindow s.par a then
    if windowOffset s.par a = 0 then
      match regReadBy (.dma n) .spiDr 1 s with
      | some (v, s') => some (lowByte v, s')
      | none => none
    else none
  else memRead (.dma n) a s

/-- A channel's byte write: of SPI_DR at BLOCK_BASE, of admitted memory, else an access error. -/
def dmaWriteByte (n : Chan) (d : Word) (b : Byte) (s : State) : Option State :=
  if inWindow s.par d then
    if windowOffset s.par d = 0 then regWriteBy (.dma n) .spiDr 1 (byteWord b) s else none
  else memWrite (.dma n) d b s

/-- The request line of channel `n` (43_dma_engine.md R484, R485). -/
def dmaReq (n : Chan) (s : State) : Bool :=
  match n with
  | .ch0 => req0 s.spi
  | .ch1 => req1 s.spi

/-- The transfer step is enabled (R486). -/
def dmaEnabled (n : Chan) (s : State) : Bool := (s.dma n).en && (s.dma n).cnt != 0 && dmaReq n s

/-- The addresses and the count after a byte has moved (R486). -/
def dmaAdvance (d : DmaChan) : DmaChan :=
  { d with
    src := if d.sinc then addrAdd d.src 1 else d.src
    dst := if d.dinc then addrAdd d.dst 1 else d.dst
    cnt := d.cnt - 1 }

/-- The transfer step of channel `n`: one byte, with the access-error path (R486-R488). -/
def dmaTransfer (n : Chan) (s : State) : State :=
  match dmaReadByte n (s.dma n).src s with
  | none => dmaAccessError n s
  | some (b, s1) =>
    match dmaWriteByte n (s.dma n).dst b s1 with
    | none => dmaAccessError n s1
    | some s2 =>
      let d := dmaAdvance (s2.dma n)
      if d.cnt = 0 then dmaComplete n (s2.setDma n d) else s2.setDma n d

/-! ### Direct access (60_exceptions.md R604, R606) -/

/-- The active task if it is another task than `t`. -/
def otherActive (t : Nat) (s : State) : Option Nat :=
  match s.active with
  | some u => if u = t then none else some u
  | none => none

/-- A direct read by the current task: halted stops, another task's operation faults, else the access. -/
def directRead (r : Reg) (n : Nat) (s : State) : Host.Outcome State Fault Refusal :=
  if s.halted.isSome then .fault .halted
  else
    match otherActive s.curTask s with
    | some u => .next (raise s.curTask none (.accessNotSerialized u) s)
    | none =>
      match taskRead s.curTask r n s with
      | .ok _ s' => .next s'
      | .raised e s' => .next (raise s.curTask none e s')

/-- A direct write by the current task. -/
def directWrite (r : Reg) (n : Nat) (v : Word) (s : State) : Host.Outcome State Fault Refusal :=
  if s.halted.isSome then .fault .halted
  else
    match otherActive s.curTask s with
    | some u => .next (raise s.curTask none (.accessNotSerialized u) s)
    | none =>
      match taskWrite s.curTask r n v s with
      | .ok _ s' => .next s'
      | .raised e s' => .next (raise s.curTask none e s')

/-- A direct access whose code has no row, an unassigned offset or a write to a read-only register:
refused, after the check of R604 (20_memory.md R212 checks 1 and 3; 60_exceptions.md R604). -/
def directUnassigned (t : Nat) (off : Byte) (s : State) : State :=
  match otherActive t s with
  | some u => raise t none (.accessNotSerialized u) s
  | none => raise t none (.badRegisterAccess off) s

end Sys2Proof.Machine
end

