-- ==== Sys2Proof/Machine/Access.lean ====
section
/-! DEFINITION. The register access instructions (30_encoding.md R303), one meaning per row: a direct access by the current task (60_exceptions.md R606) to the row's register, whose effect is the register's in Regs.lean. -/

namespace Sys2Proof.Machine

/-- RD_SPI_DR (access code 0x000), R441. -/
def execRdSpiDr (n : Nat) (s : State) : Host.Outcome State Fault Refusal := directRead .spiDr n s

/-- WR_SPI_DR (access code 0x100), R442. -/
def execWrSpiDr (n : Nat) (v : Word) (s : State) : Host.Outcome State Fault Refusal :=
  directWrite .spiDr n v s

/-- RD_SPI_SR (access code 0x004), R440. -/
def execRdSpiSr (n : Nat) (s : State) : Host.Outcome State Fault Refusal := directRead .spiSr n s

/-- WR_SPI_SR (access code 0x104), R443. -/
def execWrSpiSr (n : Nat) (v : Word) (s : State) : Host.Outcome State Fault Refusal :=
  directWrite .spiSr n v s

/-- RD_SPI_CR (access code 0x008), R447. -/
def execRdSpiCr (n : Nat) (s : State) : Host.Outcome State Fault Refusal := directRead .spiCr n s

/-- WR_SPI_CR (access code 0x108), R447. -/
def execWrSpiCr (n : Nat) (v : Word) (s : State) : Host.Outcome State Fault Refusal :=
  directWrite .spiCr n v s

/-- RD_CS_SET (access code 0x010), R402. -/
def execRdCsSet (n : Nat) (s : State) : Host.Outcome State Fault Refusal := directRead .csSet n s

/-- WR_CS_SET (access code 0x110), R400. -/
def execWrCsSet (n : Nat) (v : Word) (s : State) : Host.Outcome State Fault Refusal :=
  directWrite .csSet n v s

/-- RD_CS_CLR (access code 0x014), R402. -/
def execRdCsClr (n : Nat) (s : State) : Host.Outcome State Fault Refusal := directRead .csClr n s

/-- WR_CS_CLR (access code 0x114), R401. -/
def execWrCsClr (n : Nat) (v : Word) (s : State) : Host.Outcome State Fault Refusal :=
  directWrite .csClr n v s

/-- RD_CS_STATE (access code 0x018), R402. -/
def execRdCsState (n : Nat) (s : State) : Host.Outcome State Fault Refusal := directRead .csState n s

/-- RD_CE_SET (access code 0x020), R407. -/
def execRdCeSet (n : Nat) (s : State) : Host.Outcome State Fault Refusal := directRead .ceSet n s

/-- WR_CE_SET (access code 0x120), R404. -/
def execWrCeSet (n : Nat) (v : Word) (s : State) : Host.Outcome State Fault Refusal :=
  directWrite .ceSet n v s

/-- RD_CE_CLR (access code 0x024), R407. -/
def execRdCeClr (n : Nat) (s : State) : Host.Outcome State Fault Refusal := directRead .ceClr n s

/-- WR_CE_CLR (access code 0x124), R405. -/
def execWrCeClr (n : Nat) (v : Word) (s : State) : Host.Outcome State Fault Refusal :=
  directWrite .ceClr n v s

/-- RD_CE_STATE (access code 0x028), R407. -/
def execRdCeState (n : Nat) (s : State) : Host.Outcome State Fault Refusal := directRead .ceState n s

/-- RD_CE_CFG (access code 0x02C), R406. -/
def execRdCeCfg (n : Nat) (s : State) : Host.Outcome State Fault Refusal := directRead .ceCfg n s

/-- WR_CE_CFG (access code 0x12C), R406. -/
def execWrCeCfg (n : Nat) (v : Word) (s : State) : Host.Outcome State Fault Refusal :=
  directWrite .ceCfg n v s

/-- RD_IRQ_CFG (access code 0x030), R561. -/
def execRdIrqCfg (n : Nat) (s : State) : Host.Outcome State Fault Refusal := directRead .irqCfg n s

/-- WR_IRQ_CFG (access code 0x130), R561. -/
def execWrIrqCfg (n : Nat) (v : Word) (s : State) : Host.Outcome State Fault Refusal :=
  directWrite .irqCfg n v s

/-- RD_IRQ_PEND (access code 0x034), R562. -/
def execRdIrqPend (n : Nat) (s : State) : Host.Outcome State Fault Refusal := directRead .irqPend n s

/-- WR_IRQ_PEND (access code 0x134), R562. -/
def execWrIrqPend (n : Nat) (v : Word) (s : State) : Host.Outcome State Fault Refusal :=
  directWrite .irqPend n v s

/-- RD_TMR_CTRL (access code 0x040), R421. -/
def execRdTmrCtrl (n : Nat) (s : State) : Host.Outcome State Fault Refusal := directRead .tmrCtrl n s

/-- WR_TMR_CTRL (access code 0x140), R420. -/
def execWrTmrCtrl (n : Nat) (v : Word) (s : State) : Host.Outcome State Fault Refusal :=
  directWrite .tmrCtrl n v s

/-- RD_TMR_LOAD (access code 0x044), R422. -/
def execRdTmrLoad (n : Nat) (s : State) : Host.Outcome State Fault Refusal := directRead .tmrLoad n s

/-- WR_TMR_LOAD (access code 0x144), R422. -/
def execWrTmrLoad (n : Nat) (v : Word) (s : State) : Host.Outcome State Fault Refusal :=
  directWrite .tmrLoad n v s

/-- RD_TMR_COUNT (access code 0x048), R423. -/
def execRdTmrCount (n : Nat) (s : State) : Host.Outcome State Fault Refusal := directRead .tmrCount n s

/-- RD_TMR_IER (access code 0x04C), R424. -/
def execRdTmrIer (n : Nat) (s : State) : Host.Outcome State Fault Refusal := directRead .tmrIer n s

/-- WR_TMR_IER (access code 0x14C), R424. -/
def execWrTmrIer (n : Nat) (v : Word) (s : State) : Host.Outcome State Fault Refusal :=
  directWrite .tmrIer n v s

/-- RD_TMR_SR (access code 0x050), R425. -/
def execRdTmrSr (n : Nat) (s : State) : Host.Outcome State Fault Refusal := directRead .tmrSr n s

/-- WR_TMR_SR (access code 0x150), R425. -/
def execWrTmrSr (n : Nat) (v : Word) (s : State) : Host.Outcome State Fault Refusal :=
  directWrite .tmrSr n v s

/-- RD_DMA_SRC0 (access code 0x080), R480. -/
def execRdDmaSrc0 (n : Nat) (s : State) : Host.Outcome State Fault Refusal := directRead (.dmaSrc .ch0) n s

/-- WR_DMA_SRC0 (access code 0x180), R480. -/
def execWrDmaSrc0 (n : Nat) (v : Word) (s : State) : Host.Outcome State Fault Refusal :=
  directWrite (.dmaSrc .ch0) n v s

/-- RD_DMA_DST0 (access code 0x084), R480. -/
def execRdDmaDst0 (n : Nat) (s : State) : Host.Outcome State Fault Refusal := directRead (.dmaDst .ch0) n s

/-- WR_DMA_DST0 (access code 0x184), R480. -/
def execWrDmaDst0 (n : Nat) (v : Word) (s : State) : Host.Outcome State Fault Refusal :=
  directWrite (.dmaDst .ch0) n v s

/-- RD_DMA_CNT0 (access code 0x088), R480. -/
def execRdDmaCnt0 (n : Nat) (s : State) : Host.Outcome State Fault Refusal := directRead (.dmaCnt .ch0) n s

/-- WR_DMA_CNT0 (access code 0x188), R480. -/
def execWrDmaCnt0 (n : Nat) (v : Word) (s : State) : Host.Outcome State Fault Refusal :=
  directWrite (.dmaCnt .ch0) n v s

/-- RD_DMA_CTRL0 (access code 0x08C), R481. -/
def execRdDmaCtrl0 (n : Nat) (s : State) : Host.Outcome State Fault Refusal := directRead (.dmaCtrl .ch0) n s

/-- WR_DMA_CTRL0 (access code 0x18C), R482. -/
def execWrDmaCtrl0 (n : Nat) (v : Word) (s : State) : Host.Outcome State Fault Refusal :=
  directWrite (.dmaCtrl .ch0) n v s

/-- RD_DMA_FLAGS0 (access code 0x090), R483. -/
def execRdDmaFlags0 (n : Nat) (s : State) : Host.Outcome State Fault Refusal := directRead (.dmaFlags .ch0) n s

/-- WR_DMA_FLAGS0 (access code 0x190), R483. -/
def execWrDmaFlags0 (n : Nat) (v : Word) (s : State) : Host.Outcome State Fault Refusal :=
  directWrite (.dmaFlags .ch0) n v s

/-- RD_DMA_SRC1 (access code 0x0A0), R480. -/
def execRdDmaSrc1 (n : Nat) (s : State) : Host.Outcome State Fault Refusal := directRead (.dmaSrc .ch1) n s

/-- WR_DMA_SRC1 (access code 0x1A0), R480. -/
def execWrDmaSrc1 (n : Nat) (v : Word) (s : State) : Host.Outcome State Fault Refusal :=
  directWrite (.dmaSrc .ch1) n v s

/-- RD_DMA_DST1 (access code 0x0A4), R480. -/
def execRdDmaDst1 (n : Nat) (s : State) : Host.Outcome State Fault Refusal := directRead (.dmaDst .ch1) n s

/-- WR_DMA_DST1 (access code 0x1A4), R480. -/
def execWrDmaDst1 (n : Nat) (v : Word) (s : State) : Host.Outcome State Fault Refusal :=
  directWrite (.dmaDst .ch1) n v s

/-- RD_DMA_CNT1 (access code 0x0A8), R480. -/
def execRdDmaCnt1 (n : Nat) (s : State) : Host.Outcome State Fault Refusal := directRead (.dmaCnt .ch1) n s

/-- WR_DMA_CNT1 (access code 0x1A8), R480. -/
def execWrDmaCnt1 (n : Nat) (v : Word) (s : State) : Host.Outcome State Fault Refusal :=
  directWrite (.dmaCnt .ch1) n v s

/-- RD_DMA_CTRL1 (access code 0x0AC), R481. -/
def execRdDmaCtrl1 (n : Nat) (s : State) : Host.Outcome State Fault Refusal := directRead (.dmaCtrl .ch1) n s

/-- WR_DMA_CTRL1 (access code 0x1AC), R482. -/
def execWrDmaCtrl1 (n : Nat) (v : Word) (s : State) : Host.Outcome State Fault Refusal :=
  directWrite (.dmaCtrl .ch1) n v s

/-- RD_DMA_FLAGS1 (access code 0x0B0), R483. -/
def execRdDmaFlags1 (n : Nat) (s : State) : Host.Outcome State Fault Refusal := directRead (.dmaFlags .ch1) n s

/-- WR_DMA_FLAGS1 (access code 0x1B0), R483. -/
def execWrDmaFlags1 (n : Nat) (v : Word) (s : State) : Host.Outcome State Fault Refusal :=
  directWrite (.dmaFlags .ch1) n v s

/-- RD_DMA_IRQ (access code 0x0C0), R489. -/
def execRdDmaIrq (n : Nat) (s : State) : Host.Outcome State Fault Refusal := directRead .dmaIrq n s

/-- WR_DMA_IRQ (access code 0x1C0), R489. -/
def execWrDmaIrq (n : Nat) (v : Word) (s : State) : Host.Outcome State Fault Refusal :=
  directWrite .dmaIrq n v s

end Sys2Proof.Machine
end

