-- ==== Sys2Proof/Machine/Bus.lean ====
section
/-! DEFINITION. The frame command bytes (30_encoding.md R320, R321) as instructions: the block emits one on the SPI bus by the exchange of the shift engine's FINISH step (42_spi_transport.md R445; log 10). -/

namespace Sys2Proof.Machine

/-- The FINISH step that puts the byte `b` on the bus: halted stops; a FINISH that is not enabled makes
no move (00_scope.md R13). -/
def emitCommandByte (b : Byte) (s : State) : Host.Outcome State Fault Refusal :=
  if s.halted.isSome then .fault .halted
  else if finishEnabled s then .next (exchange b s)
  else .next s

/-- W_REGISTER: the byte 001rrrrr goes out. -/
def execWRegister (reg : BitVec 5) (s : State) : Host.Outcome State Fault Refusal :=
  emitCommandByte (wRegisterByte reg) s

/-- W_TX_PAYLOAD: the byte 0xA0 goes out. -/
def execWTxPayload (s : State) : Host.Outcome State Fault Refusal := emitCommandByte 0xA0#8 s

/-- FLUSH_TX: the byte 0xE1 goes out. -/
def execFlushTx (s : State) : Host.Outcome State Fault Refusal := emitCommandByte 0xE1#8 s

/-- FLUSH_RX: the byte 0xE2 goes out. -/
def execFlushRx (s : State) : Host.Outcome State Fault Refusal := emitCommandByte 0xE2#8 s

end Sys2Proof.Machine
end

