-- ==== Sys2Proof/Machine/Sequencer.lean ====
section
/-! DEFINITION. The transaction sequencer: issue of an operation (60_exceptions.md R603), the shapes of an operation's steps (00_scope.md R14), and the copy phase (44_frame_sequencer.md R521). -/

namespace Sys2Proof.Machine

/-! ### Issue -/

/-- The start of task `t`'s operation: `active`, `ctx[t].top`, and the first phase, in one step (R603,
44_frame_sequencer.md R522). -/
def startOperation (t : Nat) (top : Invocation) (ps : List Phase) (s : State) : State :=
  startPhases t ps (some top) codeOk 0x00#8 (s.setActive (some t))

/-- The serialization check of R603: an operation issued while one is active is rejected, TransmitDMA
against a held token as TransactionInProgress. -/
def serializationError (isTxd : Bool) (s : State) : Option Abnormal :=
  match s.active with
  | some u => if isTxd && s.owner.isSome then some .transactionInProgress else some (.busNotSerialized u)
  | none => none

/-- The first failing check of an operation's list (R603: in the order its rule gives). -/
def firstError : List (Bool × Abnormal) → Option Abnormal
  | [] => none
  | (bad, e) :: r => if bad then some e else firstError r

/-- Issue by the current task of the operation whose descriptor is `d`: the Issue event, the
serialization check, the operation's own checks, and its start; a raise changes neither `active` nor
`ctx` (R603). The program's advance stands in the step. -/
def issue (isTxd : Bool) (d x y : Word) (checks : List (Bool × Abnormal)) (ps : List Phase) (s : State) :
    Host.Outcome State Fault Refusal :=
  if s.halted.isSome then .fault .halted
  else
    let s1 := s.emit (.issue s.curTask d x y)
    match serializationError isTxd s with
    | some e => .next (raise s.curTask (some .issue) e s1)
    | none =>
      match firstError checks with
      | some e => .next (raise s.curTask (some .issue) e s1)
      | none => .next (startOperation s.curTask (.op d x y) ps s1)

/-- Issue of a descriptor that matches no row: IllegalCommand, before any other check (R603,
30_encoding.md R313). -/
def issueIllegal (t : Nat) (d x y : Word) (s : State) : State :=
  raise t (some .issue) (.illegalCommand d) (s.emit (.issue t d x y))

/-! ### Shapes of steps -/

/-- A step that reads a register and goes on with the value. -/
def stepRead (t : Nat) (l : Label) (r : Reg) (n : Nat) (k : Word → State → State) (s : State) : State :=
  match taskRead t r n s with
  | .ok v s' => k v s'
  | .raised e s' => raise t (some (.step l)) e s'

/-- A step that writes a register and goes on. -/
def stepWrite (t : Nat) (l : Label) (r : Reg) (n : Nat) (v : Word) (k : State → State) (s : State) : State :=
  match taskWrite t r n v s with
  | .ok _ s' => k s'
  | .raised e s' => raise t (some (.step l)) e s'

/-- A step that reads a byte of memory and goes on with it. -/
def stepMemRead (t : Nat) (l : Label) (a : Word) (k : Byte → State → State) (s : State) : State :=
  match taskMemRead t a s with
  | .ok b s' => k b s'
  | .raised e s' => raise t (some (.step l)) e s'

/-- A step that writes a byte of memory and goes on. -/
def stepMemWrite (t : Nat) (l : Label) (a : Word) (b : Byte) (k : State → State) (s : State) : State :=
  match taskMemWrite t a b s with
  | .ok _ s' => k s'
  | .raised e s' => raise t (some (.step l)) e s'

/-- The length and timer-target checks that open a transport: a function of the operation's length,
going on with the target (42_spi_transport.md R454 P0, R457 D0; 41_timer.md R428). -/
def stepLength (t : Nat) (l : Label) (n : Nat) (k : Nat → State → State) (s : State) : State :=
  if !frameLenOk n then raise t (some (.step l)) (.invalidLength n) s
  else if !targetOk s.par (timerTarget s.par n) then
    raise t (some (.step l)) (.timerTargetOutOfRange (timerTarget s.par n)) s
  else k (timerTarget s.par n) s

/-! ### The copy phase -/

/-- Step C(i) of a copy phase (44_frame_sequencer.md R521): one byte from the source to `dst + i`; after
the last byte the phase returns. A raise is recorded at the label C(i) (log 28). -/
def stepCopy (t i : Nat) (c : Locals) (s : State) : State :=
  let store (b : Byte) (s : State) : State :=
    stepMemWrite t (.copy i) (addrAdd c.dst i) b
      (fun s => if i + 1 < c.n then gotoStep t (.copy (i + 1)) c s else returnOp t codeOk 0x00#8 s) s
  match c.src with
  | .lit bs => store ((bs[i]?).getD 0x00#8) s
  | .mem a => stepMemRead t (.copy i) (addrAdd a i) store s

end Sys2Proof.Machine
end

