-- ==== Sys2Proof/Machine/Radio.lean ====
section
/-! DEFINITION. The frame and pulse sequencer (44_frame_sequencer.md R520-R551): TriggerPulse and InitIO with their steps, and the composite operations with their issue checks and phase lists. -/

namespace Sys2Proof.Machine

/-! ### TriggerPulse (R525) and InitIO (R551) -/

/-- PULSE: issue of TriggerPulse. -/
def execPulse (x y : Word) (s : State) : Host.Outcome State Fault Refusal :=
  issue false (mkDesc 0x10 0 0 0) x y [] [.base .triggerPulse] s

/-- The steps of TriggerPulse. -/
def stepPulse (t : Nat) (l : PulseLabel) (c : Locals) (s : State) : State :=
  match l with
  | .tp0 =>
    if !targetOk s.par Config.cePulseTicks then
      raise t (some (.step (.pulse .tp0))) (.timerTargetOutOfRange Config.cePulseTicks) s
    else stepWrite t (.pulse .tp0) .ceSet 4 1 (gotoStep t (.pulse .tp1) c) s
  | .tp1 => stepWrite t (.pulse .tp1) .tmrCtrl 4 0x1 (gotoStep t (.pulse .tp2) c) s
  | .tp2 => stepRead t (.pulse .tp2) .tmrCount 4 (fun _ => gotoStep t (.pulse .tp3) c) s
  | .tp3 => stepWrite t (.pulse .tp3) .ceClr 4 1 (returnOp t codeOk 0x00#8) s

/-- The steps of InitIO. -/
def stepInitIO (t : Nat) (l : InitLabel) (c : Locals) (s : State) : State :=
  match l with
  | .i0 => stepWrite t (.initIO .i0) .irqCfg 4 0x7 (gotoStep t (.initIO .i1) c) s
  | .i1 => stepWrite t (.initIO .i1) .ceCfg 4 0x1 (gotoStep t (.initIO .i2) c) s
  | .i2 => stepWrite t (.initIO .i2) .ceClr 4 0x1 (returnOp t codeOk 0x00#8) s

/-! ### Phase lists -/

/-- A frame of literal bytes sent by polling: a copy into FRAME_TX and TransmitPolling (R530, R540). -/
def pollFrame (p : Params) (bytes : List Byte) : List Phase :=
  [.copy p.frameTxBase (.lit bytes) bytes.length,
   .base (.transmitPolling bytes.length p.frameTxBase p.frameRxBase)]

/-- A frame of a command byte and `n` bytes of memory sent by DMA (R534, R544). -/
def dmaFrame (p : Params) (command : Byte) (a : Word) (n : Nat) : List Phase :=
  [.copy p.frameTxBase (.lit [command]) 1,
   .copy (addrAdd p.frameTxBase 1) (.mem a) n,
   .base (.transmitDma (n + 1) p.frameTxBase p.frameRxBase)]

/-- INIT_ADDR written to a device register by DMA: 6 literal bytes (R550). -/
def initAddrFrame (p : Params) (command : Byte) : List Phase :=
  [.copy p.frameTxBase (.lit (command :: p.initAddr)) 6,
   .base (.transmitDma 6 p.frameTxBase p.frameRxBase)]

/-! ### WriteRegister, WriteAddressRegister, SendCommand, ResetStatusFlags (R530-R540) -/

/-- WREG: issue of WriteRegister; a register above 0x1F raises InvalidRegister. -/
def execWreg (reg value : Byte) (x y : Word) (s : State) : Host.Outcome State Fault Refusal :=
  issue false (mkDesc 0x20 reg value 0) x y
    [(decide (Config.maxReg < reg.toNat), .invalidRegister reg)]
    (pollFrame s.par [wregByte reg, value]) s

/-- WADDR: issue of WriteAddressRegister; the length is checked before the register. -/
def execWaddr (reg len : Byte) (addr y : Word) (s : State) : Host.Outcome State Fault Refusal :=
  issue false (mkDesc 0x21 reg 0 len) addr y
    [(decide (Config.maxAddr < lenOf len), .addressTooLong (lenOf len)),
     (decide (Config.maxReg < reg.toNat), .invalidRegister reg)]
    (dmaFrame s.par (wregByte reg) addr (lenOf len)) s

/-- CMD: issue of SendCommand. -/
def execCmd (command : Byte) (x y : Word) (s : State) : Host.Outcome State Fault Refusal :=
  issue false (mkDesc 0x22 0 command 0) x y [] [.base (.transmitByte command)] s

/-- RSTAT: issue of ResetStatusFlags, the frame [0x27, 0x70]. -/
def execRstat (x y : Word) (s : State) : Host.Outcome State Fault Refusal :=
  issue false (mkDesc 0x23 0 0 0) x y [] (pollFrame s.par [0x27, 0x70]) s

/-! ### SendPayload (R544) -/

/-- The phases of SendPayload. -/
def sendPhases (p : Params) (payload : Word) (n : Nat) : List Phase :=
  pollFrame p [0x31, BitVec.ofNat 8 n] ++
    ([.base (.transmitByte 0xE1)] ++
      (pollFrame p [0x27, 0x70] ++ (dmaFrame p 0xA0 payload n ++ [.base .triggerPulse])))

/-- SEND: issue of SendPayload; a length of 0 is checked before the payload limit `n + 1 < 32`. -/
def execSend (len : Byte) (payload y : Word) (s : State) : Host.Outcome State Fault Refusal :=
  issue false (mkDesc 0x24 0 0 len) payload y
    [(decide (lenOf len = 0), .invalidLength (lenOf len)),
     (decide (Config.maxPayload < lenOf len), .payloadTooLarge (lenOf len))]
    (sendPhases s.par payload (lenOf len)) s

/-! ### Initialize (R550) -/

/-- The phases of Initialize. -/
def initPhases (p : Params) : List Phase :=
  [.base .initIO] ++
    (pollFrame p [0x25, p.initRfCh] ++
      (initAddrFrame p 0x2A ++
        (initAddrFrame p 0x30 ++
          (pollFrame p [0x21, 0x01] ++
            (pollFrame p [0x22, 0x01] ++
              (pollFrame p [0x24, p.initSetupRetr] ++ pollFrame p [0x20, 0x0E]))))))

/-- INIT: issue of Initialize. -/
def execInit (x y : Word) (s : State) : Host.Outcome State Fault Refusal :=
  issue false (mkDesc 0x25 0 0 0) x y [] (initPhases s.par) s

end Sys2Proof.Machine
end

