-- ==== Sys2Proof/Machine/Transport.lean ====
section
/-! DEFINITION. The transport operations (42_spi_transport.md R450-R460; 40_chip_select.md R410): for each its issue, which is the meaning of its descriptor, and its numbered steps, one atomic transition each. -/

namespace Sys2Proof.Machine

/-! ### ReadByte (R450) -/

/-- RDB: issue of ReadByte. -/
def execRdb (x y : Word) (s : State) : Host.Outcome State Fault Refusal :=
  issue false (mkDesc 0x01 0 0 0) x y [] [.base .readByte] s

/-- The steps of ReadByte. -/
def stepRdb (t : Nat) (l : RdbLabel) (c : Locals) (s : State) : State :=
  match l with
  | .r0 => stepRead t (.rdb .r0) .spiSr 4 (fun _ => gotoStep t (.rdb .r1) c) s
  | .r1 => stepRead t (.rdb .r1) .spiDr 1 (fun r => returnOp t codeOk (lowByte r)) s

/-! ### TransmitByte (R452) -/

/-- TXB: issue of TransmitByte. -/
def execTxb (byte : Byte) (x y : Word) (s : State) : Host.Outcome State Fault Refusal :=
  issue false (mkDesc 0x02 0 byte 0) x y [] [.base (.transmitByte byte)] s

/-- The steps of TransmitByte. -/
def stepTxb (t : Nat) (l : TxbLabel) (c : Locals) (s : State) : State :=
  match l with
  | .b0 => stepRead t (.txb .b0) .spiSr 4 (fun _ => gotoStep t (.txb .b1) c) s
  | .b1 => stepWrite t (.txb .b1) .csSet 4 1 (gotoStep t (.txb .b2) c) s
  | .b2 => stepWrite t (.txb .b2) .spiDr 1 (byteWord c.byte) (gotoStep t (.txb .b3) c) s
  | .b3 => stepRead t (.txb .b3) .spiSr 4 (fun _ => gotoStep t (.txb .b4) c) s
  | .b4 => stepRead t (.txb .b4) .spiDr 1 (fun _ => gotoStep t (.txb .b5) c) s
  | .b5 => stepWrite t (.txb .b5) .csClr 4 1 (gotoStep t (.txb .b6) c) s
  | .b6 => returnOp t codeOk 0x00#8 s

/-! ### TransmitPolling (R454) -/

/-- TXP: issue of TransmitPolling. -/
def execTxp (len : Byte) (tx rx : Word) (s : State) : Host.Outcome State Fault Refusal :=
  issue false (mkDesc 0x03 0 0 len) tx rx [] [.base (.transmitPolling (lenOf len) tx rx)] s

/-- The steps of TransmitPolling. -/
def stepTxp (t : Nat) (l : TxpLabel) (c : Locals) (s : State) : State :=
  match l with
  | .p0 => stepLength t (.txp .p0) c.n (fun target => gotoStep t (.txp .p1) { c with target := target }) s
  | .p1 => stepRead t (.txp .p1) .tmrIer 4
      (fun v => gotoStep t (.txp .p2) { c with saved := bitOf v 0 }) s
  | .p2 => stepWrite t (.txp .p2) .tmrIer 4 0 (gotoStep t (.txp .p3) c) s
  | .p3 => stepWrite t (.txp .p3) .tmrCtrl 4 0x1 (gotoStep t (.txp .p4) c) s
  | .p4 => stepWrite t (.txp .p4) .csSet 4 1 (gotoStep t (.txp .p5) { c with i := 0 }) s
  | .p5 => stepRead t (.txp .p5) .spiSr 4 (fun _ => gotoStep t (.txp .p6) c) s
  | .p6 => stepMemRead t (.txp .p6) (addrAdd c.tx c.i)
      (fun b => stepWrite t (.txp .p6) .spiDr 1 (byteWord b) (gotoStep t (.txp .p7) c)) s
  | .p7 => stepRead t (.txp .p7) .spiSr 4 (fun _ => gotoStep t (.txp .p8) c) s
  | .p8 => stepRead t (.txp .p8) .spiDr 1
      (fun r => stepMemWrite t (.txp .p8) (addrAdd c.rx c.i) (lowByte r)
        (gotoStep t (.txp (if c.i + 1 < c.n then .p5 else .p9)) { c with i := c.i + 1 })) s
  | .p9 => stepRead t (.txp .p9) .tmrCount 4 (fun _ => gotoStep t (.txp .p10) c) s
  | .p10 => stepWrite t (.txp .p10) .csClr 4 1 (gotoStep t (.txp .p11) c) s
  | .p11 => stepWrite t (.txp .p11) .tmrIer 4 (bitWord c.saved 0) (gotoStep t (.txp .p12) c) s
  | .p12 => returnOp t codeOk 0x00#8 s

/-! ### TransmitDMA (R457) and its abort (R459) -/

/-- TXD: issue of TransmitDMA. -/
def execTxd (len : Byte) (tx rx : Word) (s : State) : Host.Outcome State Fault Refusal :=
  issue true (mkDesc 0x04 0 0 len) tx rx [] [.base (.transmitDma (lenOf len) tx rx)] s

/-- The steps of TransmitDMA (D) and of its report-policy abort (T). -/
def stepTxd (t : Nat) (l : TxdLabel) (c : Locals) (s : State) : State :=
  match l with
  | .d0 => stepLength t (.txd .d0) c.n (fun target => gotoStep t (.txd .d1) { c with target := target }) s
  | .d1 =>
    if s.owner.isSome then raise t (some (.step (.txd .d1))) .transactionInProgress s
    else gotoStep t (.txd .d2) c (s.setOwner (some t))
  | .d2 => stepWrite t (.txd .d2) .tmrLoad 4 (BitVec.ofNat 32 c.target) (gotoStep t (.txd .d3) c) s
  | .d3 => stepWrite t (.txd .d3) (.dmaSrc .ch0) 4 (addrAdd c.tx 1) (gotoStep t (.txd .d4) c) s
  | .d4 => stepWrite t (.txd .d4) (.dmaDst .ch0) 4 s.par.blockBase (gotoStep t (.txd .d5) c) s
  | .d5 => stepWrite t (.txd .d5) (.dmaCnt .ch0) 4 (BitVec.ofNat 32 (c.n - 1)) (gotoStep t (.txd .d6) c) s
  | .d6 => stepWrite t (.txd .d6) (.dmaCtrl .ch0) 4 0x2 (gotoStep t (.txd .d7) c) s
  | .d7 => stepWrite t (.txd .d7) (.dmaSrc .ch1) 4 s.par.blockBase (gotoStep t (.txd .d8) c) s
  | .d8 => stepWrite t (.txd .d8) (.dmaDst .ch1) 4 c.rx (gotoStep t (.txd .d9) c) s
  | .d9 => stepWrite t (.txd .d9) (.dmaCnt .ch1) 4 (BitVec.ofNat 32 c.n) (gotoStep t (.txd .d10) c) s
  | .d10 => stepWrite t (.txd .d10) (.dmaCtrl .ch1) 4 0xD (gotoStep t (.txd .d11) c) s
  | .d11 => stepWrite t (.txd .d11) .csSet 4 1 (gotoStep t (.txd .d12) c) s
  | .d12 => stepWrite t (.txd .d12) .tmrCtrl 4 0x5 (gotoStep t (.txd .d13) c) s
  | .d13 => stepRead t (.txd .d13) .spiSr 4 (fun _ => gotoStep t (.txd .d14) c) s
  | .d14 => stepMemRead t (.txd .d14) c.tx
      (fun b => stepWrite t (.txd .d14) .spiDr 1 (byteWord b) (gotoStep t (.txd .d15) c)) s
  | .d15 => stepWrite t (.txd .d15) .spiCr 4 0x3 (gotoStep t (.txd .d16) c) s
  | .d16 => stepWrite t (.txd .d16) (.dmaCtrl .ch0) 4 0x3 (gotoStep t (.txd .d17) c) s
  | .d17 => gotoStep t (.txd .d18) { c with value := (s.taskAt t).notify } (s.setNotify t 0)
  | .d18 => stepWrite t (.txd .d18) .spiCr 4 0x0 (gotoStep t (.txd .d19) c) s
  | .d19 => stepWrite t (.txd .d19) (.dmaCtrl .ch0) 4 0x2 (gotoStep t (.txd .d20) c) s
  | .d20 => stepWrite t (.txd .d20) (.dmaFlags .ch0) 4 0x3 (gotoStep t (.txd .d21) c) s
  | .d21 => stepWrite t (.txd .d21) (.dmaFlags .ch1) 4 0x3 (gotoStep t (.txd .d22) c) s
  | .d22 => stepWrite t (.txd .d22) .csClr 4 1 (gotoStep t (.txd .d23) c) s
  | .d23 =>
    if c.value ≠ Config.notifyExpected then raise t (some (.step (.txd .d23))) (.notificationMismatch c.value) s
    else returnOp t codeOk 0x00#8 s
  | .t0 => stepWrite t (.txd .t0) .spiCr 4 0x0 (gotoStep t (.txd .t1) c) s
  | .t1 => stepWrite t (.txd .t1) (.dmaCtrl .ch0) 4 0x2 (gotoStep t (.txd .t2) c) s
  | .t2 => stepWrite t (.txd .t2) (.dmaCtrl .ch1) 4 0xC (gotoStep t (.txd .t3) c) s
  | .t3 => stepWrite t (.txd .t3) .dmaIrq 4 0x1
      (fun s => gotoStep t (.txd .t4) c ((s.setOwner none).setNotify t 0)) s
  | .t4 => stepRead t (.txd .t4) .spiSr 4 (fun _ => gotoStep t (.txd .t5) c) s
  | .t5 =>
    if s.spi.rxne then stepRead t (.txd .t5) .spiDr 1 (fun _ => gotoStep t (.txd .t6) c) s
    else gotoStep t (.txd .t6) c s
  | .t6 => stepWrite t (.txd .t6) .spiSr 4 0x8 (gotoStep t (.txd .t7) c) s
  | .t7 => stepWrite t (.txd .t7) (.dmaFlags .ch0) 4 0x3 (gotoStep t (.txd .t8) c) s
  | .t8 => stepWrite t (.txd .t8) (.dmaFlags .ch1) 4 0x3 (gotoStep t (.txd .t9) c) s
  | .t9 => stepWrite t (.txd .t9) .csClr 4 1 (gotoStep t (.txd .t10) c) s
  | .t10 => raise t (some (.step (.txd .t10))) (.transferTimedOut t) s

/-! ### SetChipSelect (40_chip_select.md R410) -/

/-- SCS: issue of SetChipSelect. -/
def execScs (level : Bool) (x y : Word) (s : State) : Host.Outcome State Fault Refusal :=
  issue false (mkDesc 0x05 (levelField level) 0 0) x y [] [.base (.setChipSelect level)] s

/-- SetChipSelect's step S0. -/
def stepScs (t : Nat) (c : Locals) (s : State) : State :=
  stepWrite t .scs (if c.level then .csSet else .csClr) 4 1 (returnOp t codeOk 0x00#8) s

end Sys2Proof.Machine
end

