-- ==== Sys2Proof/Machine/Dispatch.lean ====
section
/-! DEFINITION. One arm per constructor of Instr: the meaning of each row of spec/opcode_table.json. -/

namespace Sys2Proof.Machine

def exec (i : Instr) (s : State) : Host.Outcome State Fault Refusal :=
  match i with
  | .rdSpiDr n => Sys2Proof.Machine.execRdSpiDr n s
  | .wrSpiDr n v => Sys2Proof.Machine.execWrSpiDr n v s
  | .rdSpiSr n => Sys2Proof.Machine.execRdSpiSr n s
  | .wrSpiSr n v => Sys2Proof.Machine.execWrSpiSr n v s
  | .rdSpiCr n => Sys2Proof.Machine.execRdSpiCr n s
  | .wrSpiCr n v => Sys2Proof.Machine.execWrSpiCr n v s
  | .rdCsSet n => Sys2Proof.Machine.execRdCsSet n s
  | .wrCsSet n v => Sys2Proof.Machine.execWrCsSet n v s
  | .rdCsClr n => Sys2Proof.Machine.execRdCsClr n s
  | .wrCsClr n v => Sys2Proof.Machine.execWrCsClr n v s
  | .rdCsState n => Sys2Proof.Machine.execRdCsState n s
  | .rdCeSet n => Sys2Proof.Machine.execRdCeSet n s
  | .wrCeSet n v => Sys2Proof.Machine.execWrCeSet n v s
  | .rdCeClr n => Sys2Proof.Machine.execRdCeClr n s
  | .wrCeClr n v => Sys2Proof.Machine.execWrCeClr n v s
  | .rdCeState n => Sys2Proof.Machine.execRdCeState n s
  | .rdCeCfg n => Sys2Proof.Machine.execRdCeCfg n s
  | .wrCeCfg n v => Sys2Proof.Machine.execWrCeCfg n v s
  | .rdIrqCfg n => Sys2Proof.Machine.execRdIrqCfg n s
  | .wrIrqCfg n v => Sys2Proof.Machine.execWrIrqCfg n v s
  | .rdIrqPend n => Sys2Proof.Machine.execRdIrqPend n s
  | .wrIrqPend n v => Sys2Proof.Machine.execWrIrqPend n v s
  | .rdTmrCtrl n => Sys2Proof.Machine.execRdTmrCtrl n s
  | .wrTmrCtrl n v => Sys2Proof.Machine.execWrTmrCtrl n v s
  | .rdTmrLoad n => Sys2Proof.Machine.execRdTmrLoad n s
  | .wrTmrLoad n v => Sys2Proof.Machine.execWrTmrLoad n v s
  | .rdTmrCount n => Sys2Proof.Machine.execRdTmrCount n s
  | .rdTmrIer n => Sys2Proof.Machine.execRdTmrIer n s
  | .wrTmrIer n v => Sys2Proof.Machine.execWrTmrIer n v s
  | .rdTmrSr n => Sys2Proof.Machine.execRdTmrSr n s
  | .wrTmrSr n v => Sys2Proof.Machine.execWrTmrSr n v s
  | .rdDmaSrc0 n => Sys2Proof.Machine.execRdDmaSrc0 n s
  | .wrDmaSrc0 n v => Sys2Proof.Machine.execWrDmaSrc0 n v s
  | .rdDmaDst0 n => Sys2Proof.Machine.execRdDmaDst0 n s
  | .wrDmaDst0 n v => Sys2Proof.Machine.execWrDmaDst0 n v s
  | .rdDmaCnt0 n => Sys2Proof.Machine.execRdDmaCnt0 n s
  | .wrDmaCnt0 n v => Sys2Proof.Machine.execWrDmaCnt0 n v s
  | .rdDmaCtrl0 n => Sys2Proof.Machine.execRdDmaCtrl0 n s
  | .wrDmaCtrl0 n v => Sys2Proof.Machine.execWrDmaCtrl0 n v s
  | .rdDmaFlags0 n => Sys2Proof.Machine.execRdDmaFlags0 n s
  | .wrDmaFlags0 n v => Sys2Proof.Machine.execWrDmaFlags0 n v s
  | .rdDmaSrc1 n => Sys2Proof.Machine.execRdDmaSrc1 n s
  | .wrDmaSrc1 n v => Sys2Proof.Machine.execWrDmaSrc1 n v s
  | .rdDmaDst1 n => Sys2Proof.Machine.execRdDmaDst1 n s
  | .wrDmaDst1 n v => Sys2Proof.Machine.execWrDmaDst1 n v s
  | .rdDmaCnt1 n => Sys2Proof.Machine.execRdDmaCnt1 n s
  | .wrDmaCnt1 n v => Sys2Proof.Machine.execWrDmaCnt1 n v s
  | .rdDmaCtrl1 n => Sys2Proof.Machine.execRdDmaCtrl1 n s
  | .wrDmaCtrl1 n v => Sys2Proof.Machine.execWrDmaCtrl1 n v s
  | .rdDmaFlags1 n => Sys2Proof.Machine.execRdDmaFlags1 n s
  | .wrDmaFlags1 n v => Sys2Proof.Machine.execWrDmaFlags1 n v s
  | .rdDmaIrq n => Sys2Proof.Machine.execRdDmaIrq n s
  | .wrDmaIrq n v => Sys2Proof.Machine.execWrDmaIrq n v s
  | .rdb x y => Sys2Proof.Machine.execRdb x y s
  | .txb b x y => Sys2Proof.Machine.execTxb b x y s
  | .txp n x y => Sys2Proof.Machine.execTxp n x y s
  | .txd n x y => Sys2Proof.Machine.execTxd n x y s
  | .scs l x y => Sys2Proof.Machine.execScs l x y s
  | .pulse x y => Sys2Proof.Machine.execPulse x y s
  | .wreg a b x y => Sys2Proof.Machine.execWreg a b x y s
  | .waddr a n x y => Sys2Proof.Machine.execWaddr a n x y s
  | .cmd b x y => Sys2Proof.Machine.execCmd b x y s
  | .rstat x y => Sys2Proof.Machine.execRstat x y s
  | .send n x y => Sys2Proof.Machine.execSend n x y s
  | .init x y => Sys2Proof.Machine.execInit x y s
  | .wRegister reg => Sys2Proof.Machine.execWRegister reg s
  | .wTxPayload => Sys2Proof.Machine.execWTxPayload s
  | .flushTx => Sys2Proof.Machine.execFlushTx s
  | .flushRx => Sys2Proof.Machine.execFlushRx s

end Sys2Proof.Machine
end

