-- ==== Sys2Proof/Machine/Turn.lean ====
section
/-! DEFINITION. The agents' steps and when each is enabled (00_scope.md R14, R17): a task's issue, direct access or operation step, the shift engine, the DMA channels, the timer, the handlers (60_exceptions.md R620, R621), the device and the notification timeout (43_dma_engine.md R503); and the placing of an instruction where the next step takes it. -/

namespace Sys2Proof.Machine

/-! ### Holds (70_reset_and_hazards.md R723) -/

/-- The hold condition of task `t`'s next step; a step that holds for nothing is always enabled. -/
def holdOk (t : Nat) (c : Cur) (s : State) : Bool :=
  match c.label with
  | .rdb .r0 => s.spi.rxne
  | .txb .b0 => s.spi.txe
  | .txb .b3 => s.spi.rxne
  | .txp .p5 => s.spi.txe
  | .txp .p7 => s.spi.rxne
  | .txp .p9 => decide (c.loc.target ≤ s.tmr.count)
  | .pulse .tp2 => decide (Config.cePulseTicks ≤ s.tmr.count)
  | .txd .d17 => decide (0 < (s.taskAt t).notify)
  | .txd .t4 => s.spi.txe && !s.spi.bsy
  | _ => true

/-! ### A task's step -/

/-- The context of a task is idle (10_state.md R105). -/
def ctxIdle (c : Ctx) : Bool := c == Ctx.idle

/-- Task `t` has an enabled step: an entry of its program when idle, its operation's next step otherwise. -/
def taskEnabled (t : Nat) (s : State) : Bool :=
  match (s.taskAt t).ctx.cur with
  | some c => holdOk t c s
  | none => ctxIdle (s.taskAt t).ctx && !(s.taskAt t).prog.isEmpty

/-- The step of task `t`'s operation at its next label (10_state.md R106). -/
def operationStep (t : Nat) (c : Cur) (s : State) : State :=
  match c.label with
  | .rdb l => stepRdb t l c.loc s
  | .txb l => stepTxb t l c.loc s
  | .txp l => stepTxp t l c.loc s
  | .txd l => stepTxd t l c.loc s
  | .scs => stepScs t c.loc s
  | .pulse l => stepPulse t l c.loc s
  | .initIO l => stepInitIO t l c.loc s
  | .copy i => stepCopy t i c.loc s

/-- An entry of task `t`'s program that decodes to no instruction: IllegalCommand at issue
(30_encoding.md R313), or a refused access (20_memory.md R212). -/
def rejectInvocation (t : Nat) (inv : Invocation) (s : State) : State :=
  match inv with
  | .op d x y => issueIllegal t d x y s
  | .acc off _ _ _ => directUnassigned t off s

/-- The step of an idle task: its program advances and the entry is executed (60_exceptions.md R603, R606). -/
def invoke (t : Nat) (inv : Invocation) (rest : List Invocation) (s : State) :
    Host.Outcome State Fault Refusal :=
  match decode (invocationWords inv) with
  | .ok i => exec i ((s.setCurTask t).setProg t rest)
  | .error _ => .next (rejectInvocation t inv ((s.setCurTask t).setProg t rest))

/-- Task `t`'s step. -/
def taskStep (t : Nat) (s : State) : Host.Outcome State Fault Refusal :=
  match (s.taskAt t).ctx.cur with
  | some c => .next (operationStep t c (s.setCurTask t))
  | none =>
    match (s.taskAt t).prog with
    | inv :: rest => invoke t inv rest s
    | [] => .next s

/-! ### The shift engine, the handlers, the timeout -/

/-- The shift engine has an enabled step (42_spi_transport.md R444, R445). -/
def shiftEnabled (s : State) : Bool := startEnabled s || finishEnabled s

/-- The shift engine's step: START, or FINISH of the byte in the shift register, which is the frame
command byte it decodes to, or a data byte. -/
def shiftStep (s : State) : Host.Outcome State Fault Refusal :=
  if startEnabled s then .next (spiStart s)
  else
    match decode (.fcb s.spi.shreg) with
    | .ok i => exec i s
    | .error _ => .next (exchange s.spi.shreg s)

/-- The DMA-complete handler: notifies the owner and consumes the token, then clears the request
(60_exceptions.md R620). -/
def dmaHandlerStep (s : State) : State :=
  match s.owner with
  | some u =>
    handlerWrite .dmaHandler .dmaIrq 1 ((s.setNotify u ((s.taskAt u).notify + 1)).setOwner none)
  | none => handlerWrite .dmaHandler .dmaIrq 1 s

/-- The IRQ-line handler: clears PEND and emits the hook event (60_exceptions.md R621). -/
def irqHandlerStep (s : State) : State := (handlerWrite .irqHandler .irqPend 1 s).emit .radioIrq

/-- No shift-engine, transfer or DMA-handler step is enabled: the `hung_only` condition (43_dma_engine.md R503). -/
def hung (s : State) : Bool := !shiftEnabled s && !dmaEnabled .ch0 s && !dmaEnabled .ch1 s && !s.dmairq

/-- The TIMEOUT_MODEL condition (R503). -/
def timeoutAllowed (s : State) : Bool :=
  match s.par.timeoutModel with
  | .free => true
  | .hungOnly => hung s
  | .never => false

/-- Task `t`'s next step is the notification wait D17. -/
def waiting (t : Nat) (s : State) : Bool :=
  match (s.taskAt t).ctx.cur with
  | some c => c.label == .txd .d17
  | none => false

/-- The timeout step of task `t` is enabled (R503). -/
def timeoutEnabled (t : Nat) (s : State) : Bool :=
  waiting t s && (s.taskAt t).notify == 0 && timeoutAllowed s

/-- The timeout step: the Timeout event, then TransferTimedOut under fatal, step T0 under report (R503). -/
def timeoutStep (t : Nat) (s : State) : State :=
  let s1 := s.emit (.timeout t)
  match s.par.errorPolicy with
  | .fatal => raise t (some (.step (.txd .d17))) (.transferTimedOut t) s1
  | .report =>
    match (s.taskAt t).ctx.cur with
    | some c => gotoStep t (.txd .t0) c.loc s1
    | none => s1

/-! ### All agents -/

/-- The agent has an enabled step, in a state that is not halted (00_scope.md R17). -/
def enabled (a : Agent) (s : State) : Bool :=
  match a with
  | .task t => taskEnabled t s
  | .shift => shiftEnabled s
  | .dma n => dmaEnabled n s
  | .timer => s.tmr.running
  | .dmaHandler => s.dmairq
  | .irqHandler => s.irq.pend
  | .ovfHandler => timerLine s
  | .device => true
  | .timeout t => timeoutEnabled t s

/-- The agent's step. -/
def agentStep (a : Agent) (s : State) : Host.Outcome State Fault Refusal :=
  match a with
  | .task t => taskStep t s
  | .shift => shiftStep s
  | .dma n => .next (dmaTransfer n s)
  | .timer => .next (tick s)
  | .dmaHandler => .next (dmaHandlerStep s)
  | .irqHandler => .next (irqHandlerStep s)
  | .ovfHandler => .next (ovfHandlerStep s)
  | .device => .next (pinStep s)
  | .timeout t => .next (timeoutStep t s)

/-- A turn of the agent: its step if it has an enabled one, else no move (00_scope.md R13; log 1). -/
def turn (a : Agent) (s : State) : Host.Outcome State Fault Refusal :=
  if enabled a s then agentStep a s else .next s

/-- One step of the machine: a well-formed launch that is not halted gives one agent a turn
(00_scope.md R17, R18; 60_exceptions.md R611; 70_reset_and_hazards.md R706). -/
def oneStep (s : State) : Host.Outcome State Fault Refusal :=
  if launchOk s.par s.tasks.length then
    if s.halted.isSome then .fault .halted
    else turn (drawAgent s).1 (drawAgent s).2
  else .refused .illFormedLaunch

/-! ### Placing an instruction (log 8, 20) -/

/-- Gives the next turn to `a`, in a state that is not halted. -/
def nextTurn (a : Agent) (s : State) : State :=
  (s.setHalted none).setDraws { s.draws with agents := a :: s.draws.agents }

/-- The entry placed at the head of task 0's program, task 0 idle and next to move. -/
def placeInvocation (inv : Invocation) (s : State) : State :=
  nextTurn (.task 0) (s.setTask 0 { s.taskAt 0 with ctx := Ctx.idle, prog := inv :: (s.taskAt 0).prog })

/-- The byte placed in the shift register as the byte being shifted, its FINISH not held back by RX_PACE,
the shift engine next to move. -/
def placeByte (b : Byte) (s : State) : State :=
  nextTurn .shift (s.setSpi { s.spi with shreg := b, bsy := true, rxdmaen := s.spi.rxdmaen && !paceHolds s })

/-- The instruction words placed where the next step takes them. -/
def placeWords (ws : Words) (s : State) : State :=
  match ws with
  | .rac c n v => placeInvocation (.acc (codeOffset c) n (codeDir c) v) s
  | .desc d x y => placeInvocation (.op d x y) s
  | .fcb b => placeByte b s

end Sys2Proof.Machine
end

