-- ==== Sys2Proof/Machine/Step.lean ====
section
/-! DEFINITION. The step of the machine, and a state whose next step runs a given table word. -/

namespace Sys2Proof.Machine

/-- One atomic transition of one agent (00_scope.md R14). -/
def step (s : State) : Host.Outcome State Fault Refusal := oneStep s

/-- The state whose next step runs the instruction a word of spec/opcode_table.json gives; a word of no
form of the table leaves the state as it is. -/
def State.withFetchWord (s : State) (nbits w : Nat) : State :=
  match tableWords nbits w with
  | some ws => placeWords ws s
  | none => s

end Sys2Proof.Machine
end

