-- ==== Sys2Proof/Safety.lean ====
section
/-! DEFINITION. What claims about the block speak of: the premises of an access, an issue and a step, the states they leave, runs of named agents, SPI-clean and final states, the frames and line levels the history shows, the invariants of the state, and the fairness of a run. -/

namespace Sys2Proof.Safety

open Sys2Proof.Machine

/-! ### Premises -/

/-- The machine takes steps: a well-formed launch that is not halted (60_exceptions.md R611;
70_reset_and_hazards.md R706). -/
def running (s : State) : Prop := launchOk s.par s.tasks.length = true ∧ s.halted = none

/-- The current task may make a direct access: no other task's operation is active (60_exceptions.md
R604, R606). -/
def mayAccess (s : State) : Prop := s.halted = none ∧ (s.active = none ∨ s.active = some s.curTask)

/-- The current task may issue: no operation is active (60_exceptions.md R603). -/
def mayIssue (s : State) : Prop := s.halted = none ∧ s.active = none

/-- Task `t` exists, is idle, and `inv` heads its program. -/
def aboutTo (t : Nat) (inv : Invocation) (rest : List Invocation) (s : State) : Prop :=
  t < s.tasks.length ∧ (s.taskAt t).ctx = Ctx.idle ∧ (s.taskAt t).prog = inv :: rest

/-- Task `t` exists and its next step is at label `l` with locals `c`, with the phases `ps` still to come. -/
def atStep (t : Nat) (l : Label) (c : Locals) (ps : List Phase) (s : State) : Prop :=
  t < s.tasks.length ∧ (s.taskAt t).ctx.cur = some ⟨l, c⟩ ∧ (s.taskAt t).ctx.phases = ps

/-! ### States left by an action, each as the state before with the named fields replaced -/

/-- A read of the register at `off` by the current task, recorded, and nothing else. -/
def afterRead (off : Byte) (n : Nat) (v : Word) (s : State) : State :=
  { s with hist := s.hist ++ [.regAcc (.task s.curTask) off n .read v] }

/-- A write of the register at `off` by the current task, recorded; its effect is replaced on top. -/
def afterWrite (off : Byte) (n : Nat) (v : Word) (s : State) : State :=
  { s with hist := s.hist ++ [.regAcc (.task s.curTask) off n .write v] }

/-- The current task's direct access raised `e`, which halts (60_exceptions.md R611). -/
def afterHalt (e : Abnormal) (s : State) : State :=
  { s with halted := some e, hist := s.hist ++ [.halt e s.curTask none] }

/-- Task `t` moved: it is the current task and its fields are `k`. -/
def onTask (t : Nat) (k : TaskState) (s : State) : State := { s with tasks := s.tasks.set t k, curTask := t }

/-- The current task's operation has started at `c`, with the phases `rest` to come (60_exceptions.md R603). -/
def issued (d x y : Word) (c : Cur) (rest : List Phase) (s : State) : State :=
  { s with
    active := some s.curTask
    hist := s.hist ++ [.issue s.curTask d x y]
    tasks := s.tasks.set s.curTask
      { s.taskAt s.curTask with ctx := { cur := some c, phases := rest, top := some (.op d x y) } } }

/-- The current task's issue raised the error `e` with code `code` (60_exceptions.md R603, R610). -/
def rejected (d x y : Word) (e : Abnormal) (code : Byte) (s : State) : State :=
  match s.par.errorPolicy with
  | .fatal =>
    { s with
      halted := some e
      hist := s.hist ++ [.issue s.curTask d x y, .halt e s.curTask (some .issue)] }
  | .report =>
    { s with
      hist := s.hist ++ [.issue s.curTask d x y, .result s.curTask code 0x00#8]
      tasks := s.tasks.set s.curTask { s.taskAt s.curTask with result := some (code, 0x00#8) } }

/-- Task `t`'s step at label `l` raised the error `e` with code `code`, after the events `evs`
(60_exceptions.md R610). -/
def failed (t : Nat) (l : Label) (e : Abnormal) (code : Byte) (evs : List Event) (s : State) : State :=
  match s.par.errorPolicy with
  | .fatal =>
    { s with halted := some e, hist := s.hist ++ evs ++ [.halt e t (some (.step l))], curTask := t }
  | .report =>
    { s with
      active := none
      hist := s.hist ++ evs ++ [.result t code 0x00#8]
      tasks := s.tasks.set t { s.taskAt t with ctx := Ctx.idle, result := some (code, 0x00#8) }
      curTask := t }

/-- A base operation or copy phase of task `t` returned (OK, data) with the given phases still to come
(10_state.md R107; 44_frame_sequencer.md R521): with none the operation ends; a base phase starts at its
operation's first step; a copy phase of some byte starts at C(0); a copy phase of no byte ends at once, as a
return of (OK, 0x00). `k` holds the task's fields as the return finds them. -/
def afterReturn (t : Nat) (k : TaskState) : Byte → List Phase → State → State
  | data, [], s =>
    onTask t { k with ctx := Ctx.idle, result := some (0x00#8, data) }
      { s with active := none, hist := s.hist ++ [.result t 0x00#8 data] }
  | _, .base op :: ps, s => onTask t { k with ctx := { k.ctx with cur := some (firstStep op), phases := ps } } s
  | _, .copy _ _ 0 :: ps, s => afterReturn t k 0x00#8 ps s
  | _, .copy dst src (n + 1) :: ps, s =>
    onTask t { k with ctx := { k.ctx with
      cur := some ⟨.copy 0, { n := n + 1, dst := dst, src := src }⟩, phases := ps } } s

/-- The CsChange event of a write that makes CS `level`: none where CS stands there already
(40_chip_select.md R400, R401). -/
def csEvents (level : Bool) (s : State) : List Event := if s.cs.asserted = level then [] else [.csChange level]

/-- SPI_SR as a number: OVR 8, BSY 4, TXE 2, RXNE 1 (10_state.md R112). -/
def statusWord (p : SpiState) : Word :=
  BitVec.ofNat 32 (8 * p.ovr.toNat + 4 * p.bsy.toNat + 2 * p.txe.toNat + p.rxne.toNat)

/-! ### Runs of named agents -/

/-- The steps in which the agents of `as` get the turns, in that order: steps of the machine, not a run of
10_state.md R180, so a final state on the way is passed. -/
def runs (as : List Agent) (s : State) : Host.Outcome State Fault Refusal :=
  Host.Core.run Sys2Proof.core as.length { s with draws := { s.draws with agents := as ++ s.draws.agents } }

/-- The agent that gets the turn in a state. -/
def chosen (s : State) : Agent := (drawAgent s).1

/-- The state with that turn handed out. -/
def drawn (s : State) : State := (drawAgent s).2

/-! ### States -/

/-- SPI-clean: TXE = 1, BSY = 0, RXNE = 0 (42_spi_transport.md R449). -/
def spiClean (s : State) : Bool := s.spi.txe && !s.spi.bsy && !s.spi.rxne

/-- Every task has an empty program and an idle context. -/
def tasksDone (s : State) : Bool := s.tasks.all fun k => k.prog.isEmpty && ctxIdle k.ctx

/-- A final state (10_state.md R180); a run ends at the first one (`runNext`). -/
def isFinal (s : State) : Bool :=
  s.halted.isNone && tasksDone s && s.active.isNone && s.owner.isNone && !s.dmairq && !s.irq.pend &&
    s.spi.txe && !s.spi.bsy && !s.dma0.en && !s.dma1.en

/-! ### What the history shows -/

/-- The line changes and the timer writes of `hist` decide the CS level: the last CsChange, deasserted
before the first (10_state.md R161). -/
def csFromHist (h : List Event) : Bool :=
  h.foldl (fun b e => match e with
    | .csChange v => v
    | _ => b) false

/-- The CE level the history shows: the last CeChange, low before the first. -/
def ceFromHist (h : List Event) : Bool :=
  h.foldl (fun b e => match e with
    | .ceChange v => v
    | _ => b) false

/-- The ticks since the count was last cleared, by a write of TMR_CTRL with START or RESET (41_timer.md
R420, R430); the clearing write is a RegAcc event of offset 0x40. -/
def ticksSinceClear (h : List Event) : Nat :=
  h.foldl (fun n e => match e with
    | .tick _ => n + 1
    | .regAcc _ off _ .write v => if off = 0x40#8 ∧ (bitOf v 0 || bitOf v 2) then 0 else n
    | _ => n) 0

/-- A frame: the (mosi, miso) pairs between a CS assertion and the next deassertion (10_state.md R162). -/
abbrev Frame := List (Byte × Byte)

/-- The completed frames of a history, with the open frame carried along: `none` while CS is deasserted. -/
def framesFrom : Option Frame → List Event → List Frame
  | _, [] => []
  | o, .csChange true :: h => framesFrom (some (o.getD [])) h
  | some f, .csChange false :: h => f :: framesFrom none h
  | none, .csChange false :: h => framesFrom none h
  | some f, .exchange mosi miso _ :: h => framesFrom (some (f ++ [(mosi, miso)])) h
  | o, _ :: h => framesFrom o h

/-- The frames of a history, in order. -/
def frames (h : List Event) : List Frame := framesFrom none h

/-! ### Invariants -/

/-- Memory is in canonical form and lists admitted addresses only (20_memory.md R201). -/
def memInv (s : State) : Prop :=
  memWf s.mem = true ∧ ∀ c ∈ s.mem, admitted s.par (BitVec.ofNat 32 c.1) = true

/-- A timer value is a W-bit value (10_state.md R120). -/
def timerInv (s : State) : Prop :=
  s.tmr.count < 2 ^ s.par.timerWidth ∧ s.tmr.load < 2 ^ s.par.timerWidth

/-- A running channel has bytes left (43_dma_engine.md R482, R487). -/
def dmaInv (s : State) : Prop :=
  (s.dma0.en = true → s.dma0.cnt ≠ 0) ∧ (s.dma1.en = true → s.dma1.cnt ≠ 0)

/-- RXNE is set only with a received byte (42_spi_transport.md R450). -/
def rxInv (s : State) : Prop := s.spi.rxne = true → s.spi.rxbuf.isSome = true

/-- The active task is the one with an operation in progress, and an operation in progress has a next
step (10_state.md R105, R142; 44_frame_sequencer.md R522). -/
def serialInv (s : State) : Prop :=
  ∀ t, (s.active = some t ↔ (s.taskAt t).ctx.cur.isSome = true) ∧
    ((s.taskAt t).ctx.cur = none → (s.taskAt t).ctx = Ctx.idle)

/-- The lines are what the history shows (10_state.md R161). -/
def lineInv (s : State) : Prop := csFromHist s.hist = s.cs.asserted ∧ ceFromHist s.hist = s.ce.level

/-- The count is the ticks since it was last cleared, modulo 2^W (41_timer.md R430). -/
def countInv (s : State) : Prop := s.tmr.count = ticksSinceClear s.hist % 2 ^ s.par.timerWidth

/-! ### Runs and fairness (10_state.md R180; 70_reset_and_hazards.md R724) -/

/-- The state a run goes on to: none from a final state, where a run ends although the timer, the device or
the timer-overflow handler may still have a step (10_state.md R180; log 29), and none where the machine has
no step, halted (60_exceptions.md R611) or with an ill-formed launch. -/
def runNext (s : State) : Option State :=
  if isFinal s then none
  else match step s with
    | .next s' => some s'
    | .fault _ => none
    | .refused _ => none

/-- The state a run from `s` is in after `k` steps; none once the run has ended. -/
def runAt (s : State) : Nat → Option State
  | 0 => some s
  | k + 1 => (runAt s k).bind runNext

/-- A run: a start, and the step from every state up to the first final state, a halt, or without end. -/
def isRun (tr : Nat → Option State) : Prop :=
  (∃ s, tr 0 = some s) ∧ ∀ k, tr (k + 1) = (tr k).bind runNext

/-- The run is in a state at step `k`, and `p` holds of it. -/
def holdsAt (tr : Nat → Option State) (k : Nat) (p : State → Prop) : Prop := ∃ s, tr k = some s ∧ p s

/-- The run from `s` ends in the state `s'` as 10_state.md R180 has it: `s'` is its first final state. -/
def endsIn (s s' : State) : Prop := ∃ k, runAt s k = some s' ∧ isFinal s' = true

/-- Weak fairness for an agent: a step that stays enabled is eventually taken. A run that ends is fair. -/
def weaklyFair (a : Agent) (tr : Nat → Option State) : Prop :=
  ∀ k, (∀ j, k ≤ j → holdsAt tr j fun s => enabled a s = true) →
    ∃ j, k ≤ j ∧ holdsAt tr j fun s => chosen s = a

/-- Task `t`'s next step is a timer wait, P9 or TP2 (41_timer.md R429). -/
def atTimerWait (t : Nat) (s : State) : Bool :=
  match (s.taskAt t).ctx.cur with
  | some c => c.label == .txp .p9 || c.label == .pulse .tp2
  | none => false

/-- Strong fairness of the timer waits: a wait enabled infinitely often is eventually taken. -/
def timerWaitFair (t : Nat) (tr : Nat → Option State) : Prop :=
  ∀ k, (∀ j, k ≤ j → ∃ i, j ≤ i ∧ holdsAt tr i fun s => atTimerWait t s = true ∧ enabled (.task t) s = true) →
    ∃ j, k ≤ j ∧ holdsAt tr j fun s => chosen s = .task t ∧ enabled (.task t) s = true

/-- A fair run. -/
def isFair (tr : Nat → Option State) : Prop :=
  isRun tr ∧ (∀ a, weaklyFair a tr) ∧ ∀ t, timerWaitFair t tr

end Sys2Proof.Safety
end

