-- ==== Sys2Proof/Certificates/Slice0/Obligations.lean ====
section
/-! DEFINITION. The statements for the provers: what the spec's rules say the block does, each as a proposition about the model. The definitions before them are the tables and the end states the statements name. -/

namespace Sys2Proof.Safety

open Sys2Proof.Machine

/-- Rows of 30_encoding.md R303, part 1 of 6. -/
def accessRows1 (n : Nat) (v : Word) : List (AccessCode × Instr) :=
  [(0x000#9, .rdSpiDr n),
   (0x100#9, .wrSpiDr n v),
   (0x004#9, .rdSpiSr n),
   (0x104#9, .wrSpiSr n v),
   (0x008#9, .rdSpiCr n),
   (0x108#9, .wrSpiCr n v),
   (0x010#9, .rdCsSet n),
   (0x110#9, .wrCsSet n v),
   (0x014#9, .rdCsClr n)]

/-- Rows of 30_encoding.md R303, part 2 of 6. -/
def accessRows2 (n : Nat) (v : Word) : List (AccessCode × Instr) :=
  [(0x114#9, .wrCsClr n v),
   (0x018#9, .rdCsState n),
   (0x020#9, .rdCeSet n),
   (0x120#9, .wrCeSet n v),
   (0x024#9, .rdCeClr n),
   (0x124#9, .wrCeClr n v),
   (0x028#9, .rdCeState n),
   (0x02C#9, .rdCeCfg n),
   (0x12C#9, .wrCeCfg n v)]

/-- Rows of 30_encoding.md R303, part 3 of 6. -/
def accessRows3 (n : Nat) (v : Word) : List (AccessCode × Instr) :=
  [(0x030#9, .rdIrqCfg n),
   (0x130#9, .wrIrqCfg n v),
   (0x034#9, .rdIrqPend n),
   (0x134#9, .wrIrqPend n v),
   (0x040#9, .rdTmrCtrl n),
   (0x140#9, .wrTmrCtrl n v),
   (0x044#9, .rdTmrLoad n),
   (0x144#9, .wrTmrLoad n v),
   (0x048#9, .rdTmrCount n)]

/-- Rows of 30_encoding.md R303, part 4 of 6. -/
def accessRows4 (n : Nat) (v : Word) : List (AccessCode × Instr) :=
  [(0x04C#9, .rdTmrIer n),
   (0x14C#9, .wrTmrIer n v),
   (0x050#9, .rdTmrSr n),
   (0x150#9, .wrTmrSr n v),
   (0x080#9, .rdDmaSrc0 n),
   (0x180#9, .wrDmaSrc0 n v),
   (0x084#9, .rdDmaDst0 n),
   (0x184#9, .wrDmaDst0 n v),
   (0x088#9, .rdDmaCnt0 n)]

/-- Rows of 30_encoding.md R303, part 5 of 6. -/
def accessRows5 (n : Nat) (v : Word) : List (AccessCode × Instr) :=
  [(0x188#9, .wrDmaCnt0 n v),
   (0x08C#9, .rdDmaCtrl0 n),
   (0x18C#9, .wrDmaCtrl0 n v),
   (0x090#9, .rdDmaFlags0 n),
   (0x190#9, .wrDmaFlags0 n v),
   (0x0A0#9, .rdDmaSrc1 n),
   (0x1A0#9, .wrDmaSrc1 n v),
   (0x0A4#9, .rdDmaDst1 n),
   (0x1A4#9, .wrDmaDst1 n v)]

/-- Rows of 30_encoding.md R303, part 6 of 6. -/
def accessRows6 (n : Nat) (v : Word) : List (AccessCode × Instr) :=
  [(0x0A8#9, .rdDmaCnt1 n),
   (0x1A8#9, .wrDmaCnt1 n v),
   (0x0AC#9, .rdDmaCtrl1 n),
   (0x1AC#9, .wrDmaCtrl1 n v),
   (0x0B0#9, .rdDmaFlags1 n),
   (0x1B0#9, .wrDmaFlags1 n v),
   (0x0C0#9, .rdDmaIrq n),
   (0x1C0#9, .wrDmaIrq n v)]

/-- The 53 rows of 30_encoding.md R303: access code and instruction, with size `n` and written value `v`. -/
def accessRows (n : Nat) (v : Word) : List (AccessCode × Instr) :=
  accessRows1 n v ++ (accessRows2 n v ++ (accessRows3 n v ++ (accessRows4 n v ++ (accessRows5 n v ++ accessRows6 n v))))

/-- The mask and match of every row of 30_encoding.md R312. -/
def descriptorRows : List (Word × Word) :=
  [(0xFFFFFFFF#32, 0x01000000#32),
   (0xFFFF00FF#32, 0x02000000#32),
   (0xFFFFFF00#32, 0x03000000#32),
   (0xFFFFFF00#32, 0x04000000#32),
   (0xFFFEFFFF#32, 0x05000000#32),
   (0xFFFFFFFF#32, 0x10000000#32),
   (0xFF0000FF#32, 0x20000000#32),
   (0xFF00FF00#32, 0x21000000#32),
   (0xFFFF00FF#32, 0x22000000#32),
   (0xFFFFFFFF#32, 0x23000000#32),
   (0xFFFFFF00#32, 0x24000000#32),
   (0xFFFFFFFF#32, 0x25000000#32)]

/-- The assigned offsets of the register window (10_state.md R111-R135). -/
def assignedOffsets : List Byte :=
  [0x00, 0x04, 0x08, 0x10, 0x14, 0x18, 0x20, 0x24, 0x28, 0x2C, 0x30, 0x34, 0x40, 0x44, 0x48, 0x4C, 0x50,
   0x80, 0x84, 0x88, 0x8C, 0x90, 0xA0, 0xA4, 0xA8, 0xAC, 0xB0, 0xC0]

/-- A write of `v` at `off` would configure the running channel whose registers start at `base`. -/
def configuresRunning (base : Byte) (d : DmaChan) (off : Byte) (v : Word) : Prop :=
  d.en = true ∧
    (off = base ∨ off = base + 4 ∨ off = base + 8 ∨
      (off = base + 0xC ∧ (v.getLsbD 1, v.getLsbD 2, v.getLsbD 3) ≠ (d.sinc, d.dinc, d.ie)))

/-- The four checks of 20_memory.md R212. -/
def accessRefused (off : Byte) (n : Nat) (dir : Dir) (v : Word) (s : State) : Prop :=
  off ∉ assignedOffsets ∨
    (n ≠ 4 ∧ ¬(n = 1 ∧ off = 0x00#8)) ∨
    (dir = .write ∧ (off = 0x18#8 ∨ off = 0x28#8 ∨ off = 0x48#8)) ∨
    (dir = .write ∧ (configuresRunning 0x80#8 s.dma0 off v ∨ configuresRunning 0xA0#8 s.dma1 off v))

/-- The state after one exchange of the byte `mosi` (42_spi_transport.md R445). -/
def afterExchange (mosi : Byte) (s : State) : State :=
  let m := (drawMiso s).1
  { s with
    draws := (drawMiso s).2.draws
    hist := s.hist ++ [.exchange mosi m s.cs.asserted]
    spi := if s.spi.rxne = true then { s.spi with bsy := false, ovr := true }
      else { s.spi with bsy := false, rxbuf := some m, rxne := true } }

/-- RX_PACE holds FINISH back (42_spi_transport.md R445). -/
def held (s : State) : Prop :=
  s.par.rxPace = true ∧ s.spi.rxne = true ∧ s.spi.rxdmaen = true ∧ s.dma1.en = true ∧ s.dma1.cnt.toNat > 0

/-- A channel after it moved a byte (43_dma_engine.md R486, R487). -/
def moved (d : DmaChan) : DmaChan :=
  { d with
    src := if d.sinc then d.src + 1 else d.src
    dst := if d.dinc then d.dst + 1 else d.dst
    cnt := d.cnt - 1
    done := if d.cnt = 1 then true else d.done
    en := if d.cnt = 1 then false else d.en }

/-- The DMA-complete request after a channel moved a byte (43_dma_engine.md R487). -/
def requestAfter (d : DmaChan) (irq : Bool) : Bool := if d.cnt = 1 ∧ d.ie = true then true else irq

/-- Memory `m` is `m0` with the byte at address `a` replaced by `b`. -/
def stored (m m0 : Memory) (a : Word) (b : Byte) : Prop :=
  ∀ k : Nat, memGet m k = if k = a.toNat then b else memGet m0 k

end Sys2Proof.Safety

open Sys2Proof Sys2Proof.Machine Sys2Proof.Safety

/-- Decode after encode, for all 69 rows (30_encoding.md sections 1-4). -/
def Obligations.DecodeOfEncode : Prop :=
  ∀ i : Instr, wellFormed i = true → decode (encode i) = .ok i

/-- Encode after decode: every word of the three forms has one meaning (30_encoding.md R302, R312). -/
def Obligations.EncodeOfDecode : Prop :=
  ∀ (ws : Words) (i : Instr), decode ws = .ok i → encode i = canonicalWords ws

/-- Operation descriptors (30_encoding.md R310, R312): match and mask of every row, and the fields its operands come from. -/
def Obligations.DescriptorRows : Prop :=
  ∀ d x y : Word,
    (decode (.desc d x y) = .ok (.rdb x y) ↔ d &&& 0xFFFFFFFF#32 = 0x01000000#32) ∧
    (decode (.desc d x y) = .ok (.txb (d.extractLsb' 8 8) x y) ↔ d &&& 0xFFFF00FF#32 = 0x02000000#32) ∧
    (decode (.desc d x y) = .ok (.txp (d.extractLsb' 0 8) x y) ↔ d &&& 0xFFFFFF00#32 = 0x03000000#32) ∧
    (decode (.desc d x y) = .ok (.txd (d.extractLsb' 0 8) x y) ↔ d &&& 0xFFFFFF00#32 = 0x04000000#32) ∧
    (decode (.desc d x y) = .ok (.scs (d.getLsbD 16) x y) ↔ d &&& 0xFFFEFFFF#32 = 0x05000000#32) ∧
    (decode (.desc d x y) = .ok (.pulse x y) ↔ d &&& 0xFFFFFFFF#32 = 0x10000000#32) ∧
    (decode (.desc d x y) = .ok (.wreg (d.extractLsb' 16 8) (d.extractLsb' 8 8) x y) ↔ d &&& 0xFF0000FF#32 = 0x20000000#32) ∧
    (decode (.desc d x y) = .ok (.waddr (d.extractLsb' 16 8) (d.extractLsb' 0 8) x y) ↔ d &&& 0xFF00FF00#32 = 0x21000000#32) ∧
    (decode (.desc d x y) = .ok (.cmd (d.extractLsb' 8 8) x y) ↔ d &&& 0xFFFF00FF#32 = 0x22000000#32) ∧
    (decode (.desc d x y) = .ok (.rstat x y) ↔ d &&& 0xFFFFFFFF#32 = 0x23000000#32) ∧
    (decode (.desc d x y) = .ok (.send (d.extractLsb' 0 8) x y) ↔ d &&& 0xFFFFFF00#32 = 0x24000000#32) ∧
    (decode (.desc d x y) = .ok (.init x y) ↔ d &&& 0xFFFFFFFF#32 = 0x25000000#32)

/-- The register access table (30_encoding.md R302, R303). -/
def Obligations.AccessCodeRows : Prop :=
  ∀ (n : Nat) (v : Word),
    (∀ p ∈ accessRows n v, decode (.rac p.1 n v) = .ok p.2) ∧
    ∀ c : AccessCode, (∀ p ∈ accessRows n v, p.1 ≠ c) →
      decode (.rac c n v) = .error (.unassignedAccess c)

/-- Frame command bytes (30_encoding.md R320, R321). -/
def Obligations.CommandByteRows : Prop :=
  (∀ b : Byte,
      (decode (.fcb b) = .ok (.wRegister (b.extractLsb' 0 5)) ↔ b &&& 0xE0#8 = 0x20#8) ∧
      (decode (.fcb b) = .ok .wTxPayload ↔ b = 0xA0#8) ∧
      (decode (.fcb b) = .ok .flushTx ↔ b = 0xE1#8) ∧
      (decode (.fcb b) = .ok .flushRx ↔ b = 0xE2#8) ∧
      (decode (.fcb b) = .error (.notACommandByte b) ↔
        b &&& 0xE0#8 ≠ 0x20#8 ∧ b ≠ 0xA0#8 ∧ b ≠ 0xE1#8 ∧ b ≠ 0xE2#8)) ∧
    ∀ reg : Byte, reg.toNat ≤ 0x1F →
      (wregByte reg).toNat = 0x20 + reg.toNat ∧
        decode (.fcb (wregByte reg)) = .ok (.wRegister (reg.extractLsb' 0 5))

/-- The worked encodings of 30_encoding.md R314. -/
def Obligations.WorkedEncodings : Prop :=
  ∀ x y : Word,
    decode (.desc 0x20053200#32 x y) = .ok (.wreg 0x05#8 0x32#8 x y) ∧
    decode (.desc 0x24000004#32 x y) = .ok (.send 4#8 x y) ∧
    decode (.desc 0x04000005#32 x y) = .ok (.txd 5#8 x y) ∧
    decode (.desc 0x05010000#32 x y) = .ok (.scs true x y) ∧
    decode (.desc 0x2200E100#32 x y) = .ok (.cmd 0xE1#8 x y) ∧
    decode (.desc 0x21100005#32 x y) = .ok (.waddr 0x10#8 5#8 x y)

/-- A step executes the instruction its agent has come to (60_exceptions.md R603, R606). That the shift engine's FINISH executes the frame command byte it emits is the model's own reading (log 10). -/
def Obligations.StepRunsDecodedInstruction : Prop :=
  ∀ (s : State) (i : Instr), running s →
    (∀ t inv rest, chosen s = .task t → aboutTo t inv rest s → decode (invocationWords inv) = .ok i →
      step s = exec i (onTask t { s.taskAt t with prog := rest } (drawn s))) ∧
    (chosen s = .shift → finishEnabled s = true → decode (.fcb s.spi.shreg) = .ok i →
      step s = exec i (drawn s))

/-- The holds of 70_reset_and_hazards.md R723, each while its condition is false. -/
def Obligations.HoldsWait : Prop :=
  ∀ (s : State) (t : Nat) (l : Label) (c : Locals) (ps : List Phase), running s → atStep t l c ps s →
    ((l = .rdb .r0 ∨ l = .txb .b3 ∨ l = .txp .p7) → s.spi.rxne = false → runs [.task t] s = .next s) ∧
    ((l = .txb .b0 ∨ l = .txp .p5) → s.spi.txe = false → runs [.task t] s = .next s) ∧
    (l = .txp .p9 → s.tmr.count < c.target → runs [.task t] s = .next s) ∧
    (l = .pulse .tp2 → s.tmr.count < 10 → runs [.task t] s = .next s) ∧
    (l = .txd .d17 → (s.taskAt t).notify = 0 → runs [.task t] s = .next s) ∧
    (l = .txd .t4 → s.spi.txe = false ∨ s.spi.bsy = true → runs [.task t] s = .next s)

/-- Taking an error or a fault (60_exceptions.md R600-R602, R610) and the halt (R611). That the machine answers `fault halted` for a step of a halted state is how the model says that no agent has a step (log 11). -/
def Obligations.RaisingAndHalting : Prop :=
  (∀ (t : Nat) (p : Option Place) (e : Abnormal) (s : State),
      ((0x80#8 ≤ abnormalCode e ∨ (∃ u, e = .accessNotSerialized u) ∨ s.par.errorPolicy = .fatal) →
        raise t p e s = { s with halted := some e, hist := s.hist ++ [.halt e t p] }) ∧
      (abnormalCode e < 0x80#8 → (∀ u, e ≠ .accessNotSerialized u) → s.par.errorPolicy = .report →
        (∀ l, p = some (.step l) → raise t p e s =
          { s with
            active := none
            hist := s.hist ++ [.result t (abnormalCode e) 0x00#8]
            tasks := s.tasks.set t
              { s.taskAt t with ctx := Ctx.idle, result := some (abnormalCode e, 0x00#8) } }) ∧
        (p = some .issue → raise t p e s =
          { s with
            hist := s.hist ++ [.result t (abnormalCode e) 0x00#8]
            tasks := s.tasks.set t { s.taskAt t with result := some (abnormalCode e, 0x00#8) } }))) ∧
    (∀ (s : State) (e : Abnormal), s.halted = some e →
      (∀ i : Instr, exec i s = .fault .halted) ∧
      (launchOk s.par s.tasks.length = true → step s = .fault .halted))

/-- Reserved and illegal descriptors (30_encoding.md R313). -/
def Obligations.IllegalDescriptor : Prop :=
  ∀ d x y : Word, (∀ p ∈ descriptorRows, d &&& p.1 ≠ p.2) →
    decode (.desc d x y) = .error (.illegalDescriptor d) ∧
    ∀ (s : State) (t : Nat) (rest : List Invocation), running s → aboutTo t (.op d x y) rest s →
      runs [.task t] s =
        .next (rejected d x y (.illegalCommand d) 0x08#8 (onTask t { s.taskAt t with prog := rest } s))

/-- Issue of the base operations (60_exceptions.md R603; first steps R0, B0, P0, D0, S0, TP0). The instruction is the issue step (log 9). -/
def Obligations.IssueBaseOperations : Prop :=
  ∀ (s : State) (x y : Word), mayIssue s →
    exec (.rdb x y) s = .next (issued 0x01000000#32 x y ⟨.rdb .r0, {}⟩ [] s) ∧
    (∀ b : Byte, exec (.txb b x y) s =
      .next (issued (0x02000000#32 ||| b.setWidth 32 <<< 8) x y ⟨.txb .b0, { byte := b }⟩ [] s)) ∧
    (∀ n : Byte, exec (.txp n x y) s =
      .next (issued (0x03000000#32 ||| n.setWidth 32) x y
        ⟨.txp .p0, { n := n.toNat, tx := x, rx := y }⟩ [] s)) ∧
    (∀ n : Byte, exec (.txd n x y) s =
      .next (issued (0x04000000#32 ||| n.setWidth 32) x y
        ⟨.txd .d0, { n := n.toNat, tx := x, rx := y }⟩ [] s)) ∧
    exec (.scs true x y) s = .next (issued 0x05010000#32 x y ⟨.scs, { level := true }⟩ [] s) ∧
    exec (.scs false x y) s = .next (issued 0x05000000#32 x y ⟨.scs, { level := false }⟩ [] s) ∧
    exec (.pulse x y) s = .next (issued 0x10000000#32 x y ⟨.pulse .tp0, {}⟩ [] s)

/-- Issue of the composite operations and their phase lists (44_frame_sequencer.md R522-R550). The instruction is the issue step (log 9). -/
def Obligations.IssueFrameOperations : Prop :=
  ∀ (s : State) (x y : Word), mayIssue s →
    let tx := s.par.frameTxBase
    let rx := s.par.frameRxBase
    let lits (bs : List Byte) : Cur := ⟨.copy 0, { n := bs.length, dst := tx, src := .lit bs }⟩
    let copy (bs : List Byte) : Phase := .copy tx (.lit bs) bs.length
    let poll : Phase := .base (.transmitPolling 2 tx rx)
    let dma (n : Nat) : Phase := .base (.transmitDma n tx rx)
    (∀ reg v : Byte, reg.toNat ≤ 0x1F →
      exec (.wreg reg v x y) s =
        .next (issued (0x20000000#32 ||| reg.setWidth 32 <<< 16 ||| v.setWidth 32 <<< 8) x y
          (lits [0x20#8 ||| reg, v]) [poll] s)) ∧
    (∀ reg n : Byte, n.toNat ≤ 5 → reg.toNat ≤ 0x1F →
      exec (.waddr reg n x y) s =
        .next (issued (0x21000000#32 ||| reg.setWidth 32 <<< 16 ||| n.setWidth 32) x y
          (lits [0x20#8 ||| reg]) [.copy (tx + 1) (.mem x) n.toNat, dma (n.toNat + 1)] s)) ∧
    (∀ b : Byte, exec (.cmd b x y) s =
      .next (issued (0x22000000#32 ||| b.setWidth 32 <<< 8) x y ⟨.txb .b0, { byte := b }⟩ [] s)) ∧
    exec (.rstat x y) s = .next (issued 0x23000000#32 x y (lits [0x27#8, 0x70#8]) [poll] s) ∧
    (∀ n : Byte, 1 ≤ n.toNat → n.toNat ≤ 30 →
      exec (.send n x y) s =
        .next (issued (0x24000000#32 ||| n.setWidth 32) x y (lits [0x31#8, n])
          [poll, .base (.transmitByte 0xE1#8), copy [0x27#8, 0x70#8], poll, copy [0xA0#8],
           .copy (tx + 1) (.mem x) n.toNat, dma (n.toNat + 1), .base .triggerPulse] s)) ∧
    (s.par.initAddr.length = 5 →
      exec (.init x y) s =
        .next (issued 0x25000000#32 x y ⟨.initIO .i0, {}⟩
          [copy [0x25#8, s.par.initRfCh], poll, copy (0x2A#8 :: s.par.initAddr), dma 6,
           copy (0x30#8 :: s.par.initAddr), dma 6, copy [0x21#8, 0x01#8], poll,
           copy [0x22#8, 0x01#8], poll, copy [0x24#8, s.par.initSetupRetr], poll,
           copy [0x20#8, 0x0E#8], poll] s))

/-- Issue checks of the composite operations (44_frame_sequencer.md R530, R534, R544) and where they trap. -/
def Obligations.IssueChecks : Prop :=
  ∀ (s : State) (x y : Word), mayIssue s →
    (∀ reg v : Byte, 0x1F < reg.toNat →
      exec (.wreg reg v x y) s =
        .next (rejected (0x20000000#32 ||| reg.setWidth 32 <<< 16 ||| v.setWidth 32 <<< 8) x y
          (.invalidRegister reg) 0x07#8 s)) ∧
    (∀ reg n : Byte, 5 < n.toNat →
      exec (.waddr reg n x y) s =
        .next (rejected (0x21000000#32 ||| reg.setWidth 32 <<< 16 ||| n.setWidth 32) x y
          (.addressTooLong n.toNat) 0x02#8 s)) ∧
    (∀ reg n : Byte, n.toNat ≤ 5 → 0x1F < reg.toNat →
      exec (.waddr reg n x y) s =
        .next (rejected (0x21000000#32 ||| reg.setWidth 32 <<< 16 ||| n.setWidth 32) x y
          (.invalidRegister reg) 0x07#8 s)) ∧
    exec (.send 0#8 x y) s = .next (rejected 0x24000000#32 x y (.invalidLength 0) 0x06#8 s) ∧
    (∀ n : Byte, 32 ≤ n.toNat + 1 →
      exec (.send n x y) s =
        .next (rejected (0x24000000#32 ||| n.setWidth 32) x y (.payloadTooLarge n.toNat) 0x01#8 s))

/-- The serialization check of 60_exceptions.md R603, for all twelve operations. -/
def Obligations.IssueSerialized : Prop :=
  ∀ (i : Instr) (d x y : Word) (s : State) (u : Nat),
    encode i = .desc d x y → s.halted = none → s.active = some u →
    exec i s = .next
      (if (∃ n, i = .txd n x y) ∧ s.owner ≠ none then rejected d x y .transactionInProgress 0x03#8 s
       else rejected d x y (.busNotSerialized u) 0x09#8 s)

/-- Direct accesses during another task's operation (60_exceptions.md R604). -/
def Obligations.DirectAccessSerialized : Prop :=
  ∀ (s : State) (u : Nat), s.halted = none → s.active = some u → u ≠ s.curTask →
    (∀ (i : Instr) (c : AccessCode) (n : Nat) (v : Word), encode i = .rac c n v →
      exec i s = .next (afterHalt (.accessNotSerialized u) s)) ∧
    ∀ (off : Byte) (n : Nat) (dir : Dir) (v : Word),
      rejectInvocation s.curTask (.acc off n dir v) s = afterHalt (.accessNotSerialized u) s

/-- Which accesses are refused (20_memory.md R212) and what a refusal does (60_exceptions.md R611). -/
def Obligations.RefusedAccesses : Prop :=
  ∀ (s : State) (t : Nat) (off : Byte) (n : Nat) (dir : Dir) (v : Word) (rest : List Invocation),
    running s → aboutTo t (.acc off n dir v) rest s → (s.active = none ∨ s.active = some t) →
    (accessRefused off n dir v s →
      runs [.task t] s =
        .next (afterHalt (.badRegisterAccess off) (onTask t { s.taskAt t with prog := rest } s))) ∧
    (¬ accessRefused off n dir v s →
      ∃ s', runs [.task t] s = .next s' ∧ s'.halted ≠ some (.badRegisterAccess off))

/-- SPI_SR and SPI_CR (42_spi_transport.md R440, R443, R447), with their frame: the equations fix every field. -/
def Obligations.SpiStatusAndControl : Prop :=
  ∀ (s : State) (n : Nat) (v : Word), mayAccess s →
    exec (.rdSpiSr 4) s = .next (afterRead 0x04#8 4 (BitVec.ofNat 32 (8 * s.spi.ovr.toNat + 4 * s.spi.bsy.toNat + 2 * s.spi.txe.toNat + s.spi.rxne.toNat)) s) ∧
    exec (.wrSpiSr 4 v) s =
      .next { afterWrite 0x04#8 4 v s with
        spi := { s.spi with ovr := if v.getLsbD 3 then false else s.spi.ovr } } ∧
    exec (.rdSpiCr 4) s = .next (afterRead 0x08#8 4 (BitVec.ofNat 32 (2 * s.spi.rxdmaen.toNat + s.spi.txdmaen.toNat)) s) ∧
    (∃ s', exec (.wrSpiCr 4 v) s = .next s' ∧
      s' = { afterWrite 0x08#8 4 v s with
        spi := { s.spi with txdmaen := v.getLsbD 0, rxdmaen := v.getLsbD 1 } } ∧
      dmaReq .ch0 s' = (v.getLsbD 0 && s.spi.txe) ∧ dmaReq .ch1 s' = (v.getLsbD 1 && s.spi.rxne)) ∧
    (n ≠ 4 →
      exec (.rdSpiSr n) s = .next (afterHalt (.badRegisterAccess 0x04#8) s) ∧
      exec (.wrSpiSr n v) s = .next (afterHalt (.badRegisterAccess 0x04#8) s) ∧
      exec (.rdSpiCr n) s = .next (afterHalt (.badRegisterAccess 0x08#8) s) ∧
      exec (.wrSpiCr n v) s = .next (afterHalt (.badRegisterAccess 0x08#8) s))

/-- Reads of SPI_DR (42_spi_transport.md R441), by a task and by a channel. -/
def Obligations.SpiDataRead : Prop :=
  (∀ (s : State) (n : Nat), mayAccess s →
      ((n = 1 ∨ n = 4) →
        (∀ b, s.spi.rxbuf = some b →
          exec (.rdSpiDr n) s =
            .next { afterRead 0x00#8 n (b.setWidth 32) s with spi := { s.spi with rxne := false } }) ∧
        (s.spi.rxbuf = none → exec (.rdSpiDr n) s = .next (afterHalt (.unwrittenRead 0x00#8) s))) ∧
      (n ≠ 1 → n ≠ 4 → exec (.rdSpiDr n) s = .next (afterHalt (.badRegisterAccess 0x00#8) s))) ∧
    (∀ (s : State) (c : Chan), running s → dmaEnabled c s = true → (s.dma c).src = s.par.blockBase →
      s.spi.rxbuf = none →
      runs [.dma c] s = .next (s.setDma c { s.dma c with err := true, en := false }))

/-- Writes of SPI_DR (42_spi_transport.md R442). What a byte write records beyond its low byte (log 14) and the fault's information (log 15) are left open by the existentials. -/
def Obligations.SpiDataWrite : Prop :=
  (∀ (s : State) (n : Nat) (v : Word), mayAccess s →
      ((n = 1 ∨ n = 4) →
        (s.spi.txe = true →
          ∃ x : Word, x.extractLsb' 0 8 = v.extractLsb' 0 8 ∧ (n = 4 → x = v) ∧
            exec (.wrSpiDr n v) s =
              .next { afterWrite 0x00#8 n x s with
                spi := { s.spi with txbuf := v.extractLsb' 0 8, txe := false } }) ∧
        (s.spi.txe = false → ∃ x : Word, exec (.wrSpiDr n v) s = .next (afterHalt (.txWriteWhileFull x) s))) ∧
      (n ≠ 1 → n ≠ 4 → exec (.wrSpiDr n v) s = .next (afterHalt (.badRegisterAccess 0x00#8) s))) ∧
    (∀ (s : State) (c : Chan), running s → dmaEnabled c s = true → (s.dma c).dst = s.par.blockBase →
      inWindow s.par (s.dma c).src = false → admitted s.par (s.dma c).src = true → s.spi.txe = false →
      runs [.dma c] s =
        .next (({ s with
          hist := s.hist ++
            [.memRd (.dma c) (s.dma c).src (memGet s.mem (s.dma c).src.toNat)] } : State).setDma c
          { s.dma c with err := true, en := false }))

/-- The chip-select registers (40_chip_select.md R400-R402). The two events of one write stand in either order here (log 13). -/
def Obligations.ChipSelectRegisters : Prop :=
  ∀ (s : State) (n : Nat) (v : Word), mayAccess s →
    let acc (off : Byte) : Event := .regAcc (.task s.curTask) off 4 .write v
    (s.cs.asserted = false → v.getLsbD 0 = true → ∃ h, exec (.wrCsSet 4 v) s =
        .next { s with cs := ⟨true⟩, hist := s.hist ++ h } ∧
      (h = [acc 0x10#8, .csChange true] ∨ h = [.csChange true, acc 0x10#8])) ∧
    ((s.cs.asserted = true ∨ v.getLsbD 0 = false) → exec (.wrCsSet 4 v) s = .next (afterWrite 0x10#8 4 v s)) ∧
    (s.cs.asserted = true → v.getLsbD 0 = true → ∃ h, exec (.wrCsClr 4 v) s =
        .next { s with cs := ⟨false⟩, hist := s.hist ++ h } ∧
      (h = [acc 0x14#8, .csChange false] ∨ h = [.csChange false, acc 0x14#8])) ∧
    ((s.cs.asserted = false ∨ v.getLsbD 0 = false) → exec (.wrCsClr 4 v) s = .next (afterWrite 0x14#8 4 v s)) ∧
    exec (.rdCsSet 4) s = .next (afterRead 0x10#8 4 (0) s) ∧
    exec (.rdCsClr 4) s = .next (afterRead 0x14#8 4 (0) s) ∧
    exec (.rdCsState 4) s = .next (afterRead 0x18#8 4 (BitVec.ofNat 32 s.cs.asserted.toNat) s) ∧
    (n ≠ 4 →
      exec (.rdCsSet n) s = .next (afterHalt (.badRegisterAccess 0x10#8) s) ∧
      exec (.wrCsSet n v) s = .next (afterHalt (.badRegisterAccess 0x10#8) s) ∧
      exec (.rdCsClr n) s = .next (afterHalt (.badRegisterAccess 0x14#8) s) ∧
      exec (.wrCsClr n v) s = .next (afterHalt (.badRegisterAccess 0x14#8) s) ∧
      exec (.rdCsState n) s = .next (afterHalt (.badRegisterAccess 0x18#8) s)) ∧
    rejectInvocation s.curTask (.acc 0x18#8 n .write v) s = afterHalt (.badRegisterAccess 0x18#8) s

/-- The chip-enable registers (40_chip_select.md R404-R407). The two events of one write stand in either order here (log 13). -/
def Obligations.ChipEnableRegisters : Prop :=
  ∀ (s : State) (n : Nat) (v : Word), mayAccess s →
    let acc (off : Byte) : Event := .regAcc (.task s.curTask) off 4 .write v
    (s.ce.level = false → v.getLsbD 0 = true → ∃ h, exec (.wrCeSet 4 v) s =
        .next { s with ce := { s.ce with level := true }, hist := s.hist ++ h } ∧
      (h = [acc 0x20#8, .ceChange true] ∨ h = [.ceChange true, acc 0x20#8])) ∧
    ((s.ce.level = true ∨ v.getLsbD 0 = false) → exec (.wrCeSet 4 v) s = .next (afterWrite 0x20#8 4 v s)) ∧
    (s.ce.level = true → v.getLsbD 0 = true → ∃ h, exec (.wrCeClr 4 v) s =
        .next { s with ce := { s.ce with level := false }, hist := s.hist ++ h } ∧
      (h = [acc 0x24#8, .ceChange false] ∨ h = [.ceChange false, acc 0x24#8])) ∧
    ((s.ce.level = false ∨ v.getLsbD 0 = false) → exec (.wrCeClr 4 v) s = .next (afterWrite 0x24#8 4 v s)) ∧
    exec (.wrCeCfg 4 v) s =
      .next { afterWrite 0x2C#8 4 v s with ce := { s.ce with oe := v.getLsbD 0 } } ∧
    exec (.rdCeSet 4) s = .next (afterRead 0x20#8 4 (0) s) ∧
    exec (.rdCeClr 4) s = .next (afterRead 0x24#8 4 (0) s) ∧
    exec (.rdCeState 4) s = .next (afterRead 0x28#8 4 (BitVec.ofNat 32 s.ce.level.toNat) s) ∧
    exec (.rdCeCfg 4) s = .next (afterRead 0x2C#8 4 (BitVec.ofNat 32 s.ce.oe.toNat) s) ∧
    (n ≠ 4 →
      exec (.rdCeSet n) s = .next (afterHalt (.badRegisterAccess 0x20#8) s) ∧
      exec (.wrCeSet n v) s = .next (afterHalt (.badRegisterAccess 0x20#8) s) ∧
      exec (.rdCeClr n) s = .next (afterHalt (.badRegisterAccess 0x24#8) s) ∧
      exec (.wrCeClr n v) s = .next (afterHalt (.badRegisterAccess 0x24#8) s) ∧
      exec (.rdCeState n) s = .next (afterHalt (.badRegisterAccess 0x28#8) s) ∧
      exec (.rdCeCfg n) s = .next (afterHalt (.badRegisterAccess 0x2C#8) s) ∧
      exec (.wrCeCfg n v) s = .next (afterHalt (.badRegisterAccess 0x2C#8) s)) ∧
    rejectInvocation s.curTask (.acc 0x28#8 n .write v) s = afterHalt (.badRegisterAccess 0x28#8) s ∧
    (s.ce.oe = false → ceLine s = none) ∧ (s.ce.oe = true → ceLine s = some s.ce.level)

/-- The IRQ input registers (44_frame_sequencer.md R561, R562), with their frame. -/
def Obligations.IrqInputRegisters : Prop :=
  ∀ (s : State) (n : Nat) (v : Word), mayAccess s →
    exec (.rdIrqCfg 4) s = .next (afterRead 0x30#8 4 (BitVec.ofNat 32 (4 * s.irq.pullup.toNat + 2 * s.irq.falling.toNat + s.irq.en.toNat)) s) ∧
    exec (.wrIrqCfg 4 v) s =
      .next { afterWrite 0x30#8 4 v s with
        irq := { s.irq with en := v.getLsbD 0, falling := v.getLsbD 1, pullup := v.getLsbD 2 } } ∧
    exec (.rdIrqPend 4) s = .next (afterRead 0x34#8 4 (BitVec.ofNat 32 (2 * s.irq.pin.toNat + s.irq.pend.toNat)) s) ∧
    exec (.wrIrqPend 4 v) s =
      .next { afterWrite 0x34#8 4 v s with
        irq := { s.irq with pend := if v.getLsbD 0 then false else s.irq.pend } } ∧
    (n ≠ 4 →
      exec (.rdIrqCfg n) s = .next (afterHalt (.badRegisterAccess 0x30#8) s) ∧
      exec (.wrIrqCfg n v) s = .next (afterHalt (.badRegisterAccess 0x30#8) s) ∧
      exec (.rdIrqPend n) s = .next (afterHalt (.badRegisterAccess 0x34#8) s) ∧
      exec (.wrIrqPend n v) s = .next (afterHalt (.badRegisterAccess 0x34#8) s))

/-- The timer control register (41_timer.md R420, R421), in the order of its pseudocode. -/
def Obligations.TimerControl : Prop :=
  ∀ (s : State) (n : Nat) (v : Word), mayAccess s →
    (let m := s.tmr
     let m1 := if v.getLsbD 2 then { m with count := 0 } else m
     let m2 := if v.getLsbD 0 then { m1 with count := 0, running := true } else m1
     let m3 := if v.getLsbD 1 then { m2 with running := false } else m2
     exec (.wrTmrCtrl 4 v) s = .next { afterWrite 0x40#8 4 v s with tmr := m3 }) ∧
    exec (.rdTmrCtrl 4) s = .next (afterRead 0x40#8 4 (BitVec.ofNat 32 s.tmr.running.toNat) s) ∧
    (n ≠ 4 →
      exec (.rdTmrCtrl n) s = .next (afterHalt (.badRegisterAccess 0x40#8) s) ∧
      exec (.wrTmrCtrl n v) s = .next (afterHalt (.badRegisterAccess 0x40#8) s))

/-- The other timer registers (41_timer.md R422-R425), with their frame. The values read from TMR_LOAD and TMR_COUNT and the load written are stated for TIMER_WIDTH up to 32; above it the spec gives none, log 18 is the model's choice, and the existentials leave them open. -/
def Obligations.TimerRegisters : Prop :=
  ∀ (s : State) (n : Nat) (v : Word), mayAccess s →
    (∃ x : Word, exec (.rdTmrLoad 4) s = .next (afterRead 0x44#8 4 (x) s) ∧
      (s.par.timerWidth ≤ 32 → x = BitVec.ofNat 32 s.tmr.load)) ∧
    (∃ load : Nat, exec (.wrTmrLoad 4 v) s =
        .next { afterWrite 0x44#8 4 v s with tmr := { s.tmr with load := load } } ∧
      (s.par.timerWidth ≤ 32 → load = v.toNat % 2 ^ s.par.timerWidth)) ∧
    (∃ x : Word, exec (.rdTmrCount 4) s = .next (afterRead 0x48#8 4 (x) s) ∧
      (s.par.timerWidth ≤ 32 → x = BitVec.ofNat 32 s.tmr.count)) ∧
    exec (.rdTmrIer 4) s = .next (afterRead 0x4C#8 4 (BitVec.ofNat 32 s.tmr.ovfie.toNat) s) ∧
    (∃ s', exec (.wrTmrIer 4 v) s = .next s' ∧
      s' = { afterWrite 0x4C#8 4 v s with tmr := { s.tmr with ovfie := v.getLsbD 0 } } ∧
      timerLine s' = (s.tmr.ovf && v.getLsbD 0)) ∧
    exec (.rdTmrSr 4) s = .next (afterRead 0x50#8 4 (BitVec.ofNat 32 (2 * s.tmr.mtch.toNat + s.tmr.ovf.toNat)) s) ∧
    exec (.wrTmrSr 4 v) s =
      .next { afterWrite 0x50#8 4 v s with
        tmr := { s.tmr with
          ovf := if v.getLsbD 0 then false else s.tmr.ovf
          mtch := if v.getLsbD 1 then false else s.tmr.mtch } } ∧
    (n ≠ 4 →
      exec (.rdTmrLoad n) s = .next (afterHalt (.badRegisterAccess 0x44#8) s) ∧
      exec (.wrTmrLoad n v) s = .next (afterHalt (.badRegisterAccess 0x44#8) s) ∧
      exec (.rdTmrCount n) s = .next (afterHalt (.badRegisterAccess 0x48#8) s) ∧
      exec (.rdTmrIer n) s = .next (afterHalt (.badRegisterAccess 0x4C#8) s) ∧
      exec (.wrTmrIer n v) s = .next (afterHalt (.badRegisterAccess 0x4C#8) s) ∧
      exec (.rdTmrSr n) s = .next (afterHalt (.badRegisterAccess 0x50#8) s) ∧
      exec (.wrTmrSr n v) s = .next (afterHalt (.badRegisterAccess 0x50#8) s)) ∧
    rejectInvocation s.curTask (.acc 0x48#8 n .write v) s = afterHalt (.badRegisterAccess 0x48#8) s

/-- Configuration of the channels (43_dma_engine.md R480), with the frame of each write. -/
def Obligations.DmaConfiguration : Prop :=
  ∀ (s : State) (n : Nat) (v : Word), mayAccess s →
    exec (.rdDmaSrc0 4) s = .next (afterRead 0x80#8 4 (s.dma0.src) s) ∧
    exec (.rdDmaDst0 4) s = .next (afterRead 0x84#8 4 (s.dma0.dst) s) ∧
    exec (.rdDmaCnt0 4) s = .next (afterRead 0x88#8 4 (s.dma0.cnt.setWidth 32) s) ∧
    (s.dma0.en = false →
      exec (.wrDmaSrc0 4 v) s =
        .next { afterWrite 0x80#8 4 v s with dma0 := { s.dma0 with src := v } } ∧
      exec (.wrDmaDst0 4 v) s =
        .next { afterWrite 0x84#8 4 v s with dma0 := { s.dma0 with dst := v } } ∧
      exec (.wrDmaCnt0 4 v) s =
        .next { afterWrite 0x88#8 4 v s with dma0 := { s.dma0 with cnt := v.extractLsb' 0 16 } }) ∧
    (s.dma0.en = true →
      exec (.wrDmaSrc0 4 v) s = .next (afterHalt (.badRegisterAccess 0x80#8) s) ∧
      exec (.wrDmaDst0 4 v) s = .next (afterHalt (.badRegisterAccess 0x84#8) s) ∧
      exec (.wrDmaCnt0 4 v) s = .next (afterHalt (.badRegisterAccess 0x88#8) s)) ∧
    (n ≠ 4 →
      exec (.rdDmaSrc0 n) s = .next (afterHalt (.badRegisterAccess 0x80#8) s) ∧
      exec (.wrDmaSrc0 n v) s = .next (afterHalt (.badRegisterAccess 0x80#8) s) ∧
      exec (.rdDmaDst0 n) s = .next (afterHalt (.badRegisterAccess 0x84#8) s) ∧
      exec (.wrDmaDst0 n v) s = .next (afterHalt (.badRegisterAccess 0x84#8) s) ∧
      exec (.rdDmaCnt0 n) s = .next (afterHalt (.badRegisterAccess 0x88#8) s) ∧
      exec (.wrDmaCnt0 n v) s = .next (afterHalt (.badRegisterAccess 0x88#8) s)) ∧
    exec (.rdDmaSrc1 4) s = .next (afterRead 0xA0#8 4 (s.dma1.src) s) ∧
    exec (.rdDmaDst1 4) s = .next (afterRead 0xA4#8 4 (s.dma1.dst) s) ∧
    exec (.rdDmaCnt1 4) s = .next (afterRead 0xA8#8 4 (s.dma1.cnt.setWidth 32) s) ∧
    (s.dma1.en = false →
      exec (.wrDmaSrc1 4 v) s =
        .next { afterWrite 0xA0#8 4 v s with dma1 := { s.dma1 with src := v } } ∧
      exec (.wrDmaDst1 4 v) s =
        .next { afterWrite 0xA4#8 4 v s with dma1 := { s.dma1 with dst := v } } ∧
      exec (.wrDmaCnt1 4 v) s =
        .next { afterWrite 0xA8#8 4 v s with dma1 := { s.dma1 with cnt := v.extractLsb' 0 16 } }) ∧
    (s.dma1.en = true →
      exec (.wrDmaSrc1 4 v) s = .next (afterHalt (.badRegisterAccess 0xA0#8) s) ∧
      exec (.wrDmaDst1 4 v) s = .next (afterHalt (.badRegisterAccess 0xA4#8) s) ∧
      exec (.wrDmaCnt1 4 v) s = .next (afterHalt (.badRegisterAccess 0xA8#8) s)) ∧
    (n ≠ 4 →
      exec (.rdDmaSrc1 n) s = .next (afterHalt (.badRegisterAccess 0xA0#8) s) ∧
      exec (.wrDmaSrc1 n v) s = .next (afterHalt (.badRegisterAccess 0xA0#8) s) ∧
      exec (.rdDmaDst1 n) s = .next (afterHalt (.badRegisterAccess 0xA4#8) s) ∧
      exec (.wrDmaDst1 n v) s = .next (afterHalt (.badRegisterAccess 0xA4#8) s) ∧
      exec (.rdDmaCnt1 n) s = .next (afterHalt (.badRegisterAccess 0xA8#8) s) ∧
      exec (.wrDmaCnt1 n v) s = .next (afterHalt (.badRegisterAccess 0xA8#8) s))

/-- Control of the channels (43_dma_engine.md R481, R482), with the frame of each write. -/
def Obligations.DmaControl : Prop :=
  ∀ (s : State) (n : Nat) (v : Word), mayAccess s →
    let cfg := (v.getLsbD 1, v.getLsbD 2, v.getLsbD 3)
    exec (.rdDmaCtrl0 4) s = .next (afterRead 0x8C#8 4 (BitVec.ofNat 32 (8 * s.dma0.ie.toNat + 4 * s.dma0.dinc.toNat + 2 * s.dma0.sinc.toNat + s.dma0.en.toNat)) s) ∧
    (s.dma0.en = true → cfg ≠ (s.dma0.sinc, s.dma0.dinc, s.dma0.ie) →
      exec (.wrDmaCtrl0 4 v) s = .next (afterHalt (.badRegisterAccess 0x8C#8) s)) ∧
    (s.dma0.en = true → cfg = (s.dma0.sinc, s.dma0.dinc, s.dma0.ie) →
      exec (.wrDmaCtrl0 4 v) s =
        .next { afterWrite 0x8C#8 4 v s with dma0 := { s.dma0 with en := v.getLsbD 0 } }) ∧
    (s.dma0.en = false →
      let d := { s.dma0 with sinc := v.getLsbD 1, dinc := v.getLsbD 2, ie := v.getLsbD 3 }
      (v.getLsbD 0 = false → exec (.wrDmaCtrl0 4 v) s = .next { afterWrite 0x8C#8 4 v s with dma0 := d }) ∧
      (v.getLsbD 0 = true → s.dma0.cnt ≠ 0 →
        exec (.wrDmaCtrl0 4 v) s =
          .next { afterWrite 0x8C#8 4 v s with dma0 := { d with en := true } }) ∧
      (v.getLsbD 0 = true → s.dma0.cnt = 0 →
        exec (.wrDmaCtrl0 4 v) s =
          .next { afterWrite 0x8C#8 4 v s with
            dma0 := { d with done := true }
            dmairq := if v.getLsbD 3 then true else s.dmairq })) ∧
    (n ≠ 4 →
      exec (.rdDmaCtrl0 n) s = .next (afterHalt (.badRegisterAccess 0x8C#8) s) ∧
      exec (.wrDmaCtrl0 n v) s = .next (afterHalt (.badRegisterAccess 0x8C#8) s)) ∧
    exec (.rdDmaCtrl1 4) s = .next (afterRead 0xAC#8 4 (BitVec.ofNat 32 (8 * s.dma1.ie.toNat + 4 * s.dma1.dinc.toNat + 2 * s.dma1.sinc.toNat + s.dma1.en.toNat)) s) ∧
    (s.dma1.en = true → cfg ≠ (s.dma1.sinc, s.dma1.dinc, s.dma1.ie) →
      exec (.wrDmaCtrl1 4 v) s = .next (afterHalt (.badRegisterAccess 0xAC#8) s)) ∧
    (s.dma1.en = true → cfg = (s.dma1.sinc, s.dma1.dinc, s.dma1.ie) →
      exec (.wrDmaCtrl1 4 v) s =
        .next { afterWrite 0xAC#8 4 v s with dma1 := { s.dma1 with en := v.getLsbD 0 } }) ∧
    (s.dma1.en = false →
      let d := { s.dma1 with sinc := v.getLsbD 1, dinc := v.getLsbD 2, ie := v.getLsbD 3 }
      (v.getLsbD 0 = false → exec (.wrDmaCtrl1 4 v) s = .next { afterWrite 0xAC#8 4 v s with dma1 := d }) ∧
      (v.getLsbD 0 = true → s.dma1.cnt ≠ 0 →
        exec (.wrDmaCtrl1 4 v) s =
          .next { afterWrite 0xAC#8 4 v s with dma1 := { d with en := true } }) ∧
      (v.getLsbD 0 = true → s.dma1.cnt = 0 →
        exec (.wrDmaCtrl1 4 v) s =
          .next { afterWrite 0xAC#8 4 v s with
            dma1 := { d with done := true }
            dmairq := if v.getLsbD 3 then true else s.dmairq })) ∧
    (n ≠ 4 →
      exec (.rdDmaCtrl1 n) s = .next (afterHalt (.badRegisterAccess 0xAC#8) s) ∧
      exec (.wrDmaCtrl1 n v) s = .next (afterHalt (.badRegisterAccess 0xAC#8) s))

/-- Channel flags and the DMA-complete request (43_dma_engine.md R483, R489), with their frame. -/
def Obligations.DmaFlagsAndRequest : Prop :=
  ∀ (s : State) (n : Nat) (v : Word), mayAccess s →
    exec (.rdDmaFlags0 4) s = .next (afterRead 0x90#8 4 (BitVec.ofNat 32 (2 * s.dma0.err.toNat + s.dma0.done.toNat)) s) ∧
    exec (.wrDmaFlags0 4 v) s =
      .next { afterWrite 0x90#8 4 v s with
        dma0 := { s.dma0 with
          done := if v.getLsbD 0 then false else s.dma0.done
          err := if v.getLsbD 1 then false else s.dma0.err } } ∧
    exec (.rdDmaFlags1 4) s = .next (afterRead 0xB0#8 4 (BitVec.ofNat 32 (2 * s.dma1.err.toNat + s.dma1.done.toNat)) s) ∧
    exec (.wrDmaFlags1 4 v) s =
      .next { afterWrite 0xB0#8 4 v s with
        dma1 := { s.dma1 with
          done := if v.getLsbD 0 then false else s.dma1.done
          err := if v.getLsbD 1 then false else s.dma1.err } } ∧
    exec (.rdDmaIrq 4) s = .next (afterRead 0xC0#8 4 (BitVec.ofNat 32 s.dmairq.toNat) s) ∧
    (∃ s', exec (.wrDmaIrq 4 v) s = .next s' ∧
      s' = { afterWrite 0xC0#8 4 v s with dmairq := if v.getLsbD 0 then false else s.dmairq } ∧
      (v.getLsbD 0 = true → enabled .dmaHandler s' = false)) ∧
    (n ≠ 4 →
      exec (.rdDmaFlags0 n) s = .next (afterHalt (.badRegisterAccess 0x90#8) s) ∧
      exec (.wrDmaFlags0 n v) s = .next (afterHalt (.badRegisterAccess 0x90#8) s) ∧
      exec (.rdDmaFlags1 n) s = .next (afterHalt (.badRegisterAccess 0xB0#8) s) ∧
      exec (.wrDmaFlags1 n v) s = .next (afterHalt (.badRegisterAccess 0xB0#8) s) ∧
      exec (.rdDmaIrq n) s = .next (afterHalt (.badRegisterAccess 0xC0#8) s) ∧
      exec (.wrDmaIrq n v) s = .next (afterHalt (.badRegisterAccess 0xC0#8) s))

/-- The four frame command bytes as the block emits them: the model reads them as the exchange of that byte (log 10). -/
def Obligations.CommandBytesGoOut : Prop :=
  ∀ s : State, s.halted = none → s.spi.bsy = true → ¬ held s →
    (∀ r : BitVec 5, exec (.wRegister r) s = .next (afterExchange (0x20#8 ||| r.setWidth 8) s)) ∧
    exec .wTxPayload s = .next (afterExchange 0xA0#8 s) ∧
    exec .flushTx s = .next (afterExchange 0xE1#8 s) ∧
    exec .flushRx s = .next (afterExchange 0xE2#8 s)

/-- The START step (42_spi_transport.md R444). -/
def Obligations.ShiftStart : Prop :=
  ∀ s : State, running s → s.spi.bsy = false →
    (s.spi.txe = false →
      runs [.shift] s = .next { s with spi := { s.spi with shreg := s.spi.txbuf, txe := true, bsy := true } }) ∧
    (s.spi.txe = true → runs [.shift] s = .next s)

/-- The FINISH step (42_spi_transport.md R445). -/
def Obligations.ShiftFinish : Prop :=
  ∀ s : State, running s → s.spi.bsy = true →
    (¬ held s → runs [.shift] s = .next (afterExchange s.spi.shreg s)) ∧
    (held s → runs [.shift] s = .next s)

/-- The transfer step and completion (43_dma_engine.md R486, R487). The memory premise is the invariant memInv. -/
def Obligations.DmaTransfer : Prop :=
  ∀ (s : State) (c : Chan), running s → memInv s → (s.dma c).en = true → (s.dma c).cnt.toNat > 0 →
    let d := s.dma c
    let r := s.spi.rxbuf.getD 0
    let b := memGet s.mem d.src.toNat
    let finish (p : SpiState) (m : Memory) (evs : List Event) : State :=
      ({ s with spi := p, mem := m, hist := s.hist ++ evs, dmairq := requestAfter d s.dmairq } : State).setDma c
        (moved d)
    (dmaReq c s = true → inWindow s.par d.src = false → admitted s.par d.src = true →
      (d.dst = s.par.blockBase → s.spi.txe = true →
        runs [.dma c] s = .next (finish { s.spi with txbuf := b, txe := false } s.mem
          [.memRd (.dma c) d.src b, .regAcc (.dma c) 0x00#8 1 .write (b.setWidth 32)])) ∧
      (inWindow s.par d.dst = false → admitted s.par d.dst = true →
        ∃ m, stored m s.mem d.dst b ∧
          runs [.dma c] s = .next (finish s.spi m
            [.memRd (.dma c) d.src b, .memWr (.dma c) d.dst b]))) ∧
    (dmaReq c s = true → d.src = s.par.blockBase → s.spi.rxbuf.isSome = true →
      (d.dst = s.par.blockBase → s.spi.txe = true →
        runs [.dma c] s = .next (finish { s.spi with rxne := false, txbuf := r, txe := false } s.mem
          [.regAcc (.dma c) 0x00#8 1 .read (r.setWidth 32),
           .regAcc (.dma c) 0x00#8 1 .write (r.setWidth 32)])) ∧
      (inWindow s.par d.dst = false → admitted s.par d.dst = true →
        ∃ m, stored m s.mem d.dst r ∧
          runs [.dma c] s = .next (finish { s.spi with rxne := false } m
            [.regAcc (.dma c) 0x00#8 1 .read (r.setWidth 32), .memWr (.dma c) d.dst r]))) ∧
    (dmaReq c s = false → runs [.dma c] s = .next s)

/-- The access-error path of a channel (43_dma_engine.md R488; 20_memory.md R213). -/
def Obligations.DmaAccessErrors : Prop :=
  ∀ (s : State) (c : Chan), running s → dmaEnabled c s = true →
    let d := s.dma c
    let r := s.spi.rxbuf.getD 0
    let b := memGet s.mem d.src.toNat
    let erred (s : State) : State := s.setDma c { d with err := true, en := false }
    let badAddress (a : Word) : Prop :=
      (inWindow s.par a = true ∧ a ≠ s.par.blockBase) ∨ (inWindow s.par a = false ∧ admitted s.par a = false)
    (badAddress d.src → runs [.dma c] s = .next (erred s)) ∧
    (badAddress d.dst → inWindow s.par d.src = false → admitted s.par d.src = true →
      runs [.dma c] s = .next (erred { s with hist := s.hist ++ [.memRd (.dma c) d.src b] })) ∧
    (badAddress d.dst → d.src = s.par.blockBase → s.spi.rxbuf.isSome = true →
      runs [.dma c] s = .next (erred { s with
        spi := { s.spi with rxne := false }
        hist := s.hist ++ [.regAcc (.dma c) 0x00#8 1 .read (r.setWidth 32)] }))

/-- The tick (41_timer.md R426). -/
def Obligations.TimerTick : Prop :=
  ∀ s : State, running s →
    (s.tmr.running = true →
      let c := (s.tmr.count + 1) % 2 ^ s.par.timerWidth
      runs [.timer] s = .next { s with
        tmr := { s.tmr with
          count := c
          ovf := if c = 0 then true else s.tmr.ovf
          mtch := if c = s.tmr.load then true else s.tmr.mtch }
        hist := s.hist ++ [.tick c] }) ∧
    (s.tmr.running = false → runs [.timer] s = .next s)

/-- The timer interrupt line and its handler (41_timer.md R427). -/
def Obligations.OverflowHandler : Prop :=
  ∀ s : State, running s →
    (s.tmr.ovf = true ∧ s.tmr.ovfie = true →
      runs [.ovfHandler] s = .next { s with tmr := { s.tmr with ovf := false } }) ∧
    (¬ (s.tmr.ovf = true ∧ s.tmr.ovfie = true) → runs [.ovfHandler] s = .next s)

/-- The DMA-complete handler (60_exceptions.md R620). -/
def Obligations.DmaCompleteHandler : Prop :=
  ∀ s : State, running s →
    (s.dmairq = true →
      let s1 := { s with
        dmairq := false
        hist := s.hist ++ [.regAcc .dmaHandler 0xC0#8 4 .write 1] }
      (s.owner = none → runs [.dmaHandler] s = .next s1) ∧
      (∀ u, s.owner = some u → runs [.dmaHandler] s = .next { s1 with
        owner := none
        tasks := s.tasks.set u { s.taskAt u with notify := (s.taskAt u).notify + 1 } })) ∧
    (s.dmairq = false → runs [.dmaHandler] s = .next s)

/-- The IRQ-line handler (60_exceptions.md R621). -/
def Obligations.IrqLineHandler : Prop :=
  ∀ s : State, running s →
    (s.irq.pend = true →
      runs [.irqHandler] s = .next { s with
        irq := { s.irq with pend := false }
        hist := s.hist ++ [.regAcc .irqHandler 0x34#8 4 .write 1, .radioIrq] }) ∧
    (s.irq.pend = false → runs [.irqHandler] s = .next s)

/-- The pin step (44_frame_sequencer.md R560), for every drawn level. -/
def Obligations.DevicePin : Prop :=
  ∀ s : State, running s →
    let p := (drawPin s).1
    runs [.device] s = .next { s with
      draws := (drawPin s).2.draws
      irq := { s.irq with
        pin := p
        pend := if s.irq.en = true ∧ s.irq.pin ≠ p ∧ p = !s.irq.falling then true else s.irq.pend } }

/-- ReadByte (42_spi_transport.md R450), its two steps and its hold. -/
def Obligations.ReadByteRuns : Prop :=
  ∀ (s : State) (t : Nat) (c : Locals) (ps : List Phase), running s → rxInv s → atStep t (.rdb .r0) c ps s →
    (s.spi.rxne = true → ∃ r, s.spi.rxbuf = some r ∧
      runs [.task t, .task t] s = .next (afterReturn t (s.taskAt t) r ps
        { s with
          spi := { s.spi with rxne := false }
          hist := s.hist ++
            [.regAcc (.task t) 0x04#8 4 .read (statusWord s.spi),
             .regAcc (.task t) 0x00#8 1 .read (r.setWidth 32)] })) ∧
    (s.spi.rxne = false → runs [.task t] s = .next s)

/-- TransmitByte (42_spi_transport.md R452) run alone with the shift engine. The order of CS accesses and CsChange events is the model's (log 13, from 95_test_vectors.md V7-1). -/
def Obligations.TransmitByteRuns : Prop :=
  ∀ (s : State) (t : Nat) (c : Locals) (ps : List Phase), running s → atStep t (.txb .b0) c ps s →
    spiClean s = true →
    let m := (drawMiso s).1
    let p := { s.spi with txbuf := c.byte, shreg := c.byte, rxbuf := some m, rxne := true }
    runs [.task t, .task t, .task t, .shift, .shift, .task t, .task t, .task t, .task t] s =
      .next (afterReturn t (s.taskAt t) 0x00#8 ps
        { s with
          draws := (drawMiso s).2.draws
          spi := { p with rxne := false }
          cs := ⟨false⟩
          hist := s.hist ++
            [.regAcc (.task t) 0x04#8 4 .read (statusWord s.spi),
             .regAcc (.task t) 0x10#8 4 .write 1] ++ csEvents true s ++
            [.regAcc (.task t) 0x00#8 1 .write (c.byte.setWidth 32),
             .exchange c.byte m true,
             .regAcc (.task t) 0x04#8 4 .read (statusWord p),
             .regAcc (.task t) 0x00#8 1 .read (m.setWidth 32),
             .regAcc (.task t) 0x14#8 4 .write 1, .csChange false] })

/-- SetChipSelect (40_chip_select.md R410). The order of the access and the CsChange event is the model's (log 13). -/
def Obligations.SetChipSelectRuns : Prop :=
  ∀ (s : State) (t : Nat) (c : Locals) (ps : List Phase), running s → atStep t .scs c ps s →
    runs [.task t] s = .next (afterReturn t (s.taskAt t) 0x00#8 ps
      { s with
        cs := ⟨c.level⟩
        hist := s.hist ++ [.regAcc (.task t) (if c.level = true then 0x10#8 else 0x14#8) 4 .write 1] ++
          csEvents c.level s })

/-- TriggerPulse (44_frame_sequencer.md R525) run alone with the timer. The order of CE accesses and CeChange events is the model's (log 13). -/
def Obligations.TriggerPulseRuns : Prop :=
  ∀ (s : State) (t : Nat) (c : Locals) (ps : List Phase), running s → atStep t (.pulse .tp0) c ps s →
    runs ([.task t, .task t] ++ List.replicate 10 .timer ++ [.task t, .task t]) s =
      .next (afterReturn t (s.taskAt t) 0x00#8 ps
        { s with
          ce := { s.ce with level := false }
          tmr := { s.tmr with
            count := 10
            running := true
            mtch := if 1 ≤ s.tmr.load ∧ s.tmr.load ≤ 10 then true else s.tmr.mtch }
          hist := s.hist ++
            [.regAcc (.task t) 0x20#8 4 .write 1] ++ (if s.ce.level = true then [] else [.ceChange true]) ++
            [.regAcc (.task t) 0x40#8 4 .write 1,
             .tick 1, .tick 2, .tick 3, .tick 4, .tick 5, .tick 6, .tick 7, .tick 8, .tick 9, .tick 10,
             .regAcc (.task t) 0x48#8 4 .read 10,
             .regAcc (.task t) 0x24#8 4 .write 1, .ceChange false] })

/-- InitIO (44_frame_sequencer.md R551). The two events of the CE_CLR step stand in either order here (log 13). -/
def Obligations.InitIORuns : Prop :=
  ∀ (s : State) (t : Nat) (c : Locals) (ps : List Phase), running s → atStep t (.initIO .i0) c ps s →
    ∃ h : List Event,
      runs [.task t, .task t, .task t] s = .next (afterReturn t (s.taskAt t) 0x00#8 ps
        { s with
          irq := { s.irq with en := true, falling := true, pullup := true }
          ce := ⟨false, true⟩
          hist := s.hist ++
            [.regAcc (.task t) 0x30#8 4 .write 7, .regAcc (.task t) 0x2C#8 4 .write 1] ++ h }) ∧
      (s.ce.level = false → h = [.regAcc (.task t) 0x24#8 4 .write 1]) ∧
      (s.ce.level = true →
        h = [.regAcc (.task t) 0x24#8 4 .write 1, .ceChange false] ∨
          h = [.ceChange false, .regAcc (.task t) 0x24#8 4 .write 1])

/-- TransmitPolling (42_spi_transport.md R454), steps P0-P4 and P9-P12. Two points are the model's choice: the order of CS accesses and CsChange events (log 13), and the value recorded for the TMR_COUNT read at P9, the low 32 bits of the count, where the counter is wider than 32 bits (log 18). -/
def Obligations.PollingSetupAndFinish : Prop :=
  ∀ (s : State) (t : Nat) (c : Locals) (ps : List Phase), running s →
    (atStep t (.txp .p0) c ps s → 1 ≤ c.n → c.n ≤ 32 →
      c.n * s.par.timePerByte ≤ 2 ^ s.par.timerWidth - 1 →
      runs (List.replicate 5 (.task t)) s = .next (onTask t
        { s.taskAt t with ctx := { (s.taskAt t).ctx with
            cur := some ⟨.txp .p5,
              { c with target := c.n * s.par.timePerByte, saved := s.tmr.ovfie, i := 0 }⟩ } }
        { s with
          tmr := { s.tmr with ovfie := false, count := 0, running := true }
          cs := ⟨true⟩
          hist := s.hist ++
            [.regAcc (.task t) 0x4C#8 4 .read (BitVec.ofNat 32 s.tmr.ovfie.toNat),
             .regAcc (.task t) 0x4C#8 4 .write 0, .regAcc (.task t) 0x40#8 4 .write 1,
             .regAcc (.task t) 0x10#8 4 .write 1] ++ csEvents true s })) ∧
    (atStep t (.txp .p9) c ps s → c.target ≤ s.tmr.count →
      runs (List.replicate 4 (.task t)) s = .next (afterReturn t (s.taskAt t) 0x00#8 ps
        { s with
          tmr := { s.tmr with ovfie := c.saved }
          cs := ⟨false⟩
          hist := s.hist ++
            [.regAcc (.task t) 0x48#8 4 .read (BitVec.ofNat 32 s.tmr.count),
             .regAcc (.task t) 0x14#8 4 .write 1] ++ csEvents false s ++
            [.regAcc (.task t) 0x4C#8 4 .write (BitVec.ofNat 32 c.saved.toNat)] }))

/-- The byte loop of TransmitPolling (42_spi_transport.md R454, P5-P8), with the frame of its store. -/
def Obligations.PollingByte : Prop :=
  ∀ (s : State) (t : Nat) (c : Locals) (ps : List Phase), running s → memInv s →
    atStep t (.txp .p5) c ps s → spiClean s = true →
    let a := c.tx + BitVec.ofNat 32 c.i
    let r := c.rx + BitVec.ofNat 32 c.i
    admitted s.par a = true → admitted s.par r = true →
    let b := memGet s.mem a.toNat
    let m := (drawMiso s).1
    let p := { s.spi with txbuf := b, shreg := b, rxbuf := some m, rxne := true }
    ∃ mem, stored mem s.mem r m ∧
      runs [.task t, .task t, .shift, .shift, .task t, .task t] s = .next (onTask t
        { s.taskAt t with ctx := { (s.taskAt t).ctx with
            cur := some ⟨.txp (if c.i + 1 < c.n then .p5 else .p9), { c with i := c.i + 1 }⟩ } }
        { s with
          draws := (drawMiso s).2.draws
          spi := { p with rxne := false }
          mem := mem
          hist := s.hist ++
            [.regAcc (.task t) 0x04#8 4 .read (statusWord s.spi), .memRd (.task t) a b,
             .regAcc (.task t) 0x00#8 1 .write (b.setWidth 32), .exchange b m s.cs.asserted,
             .regAcc (.task t) 0x04#8 4 .read (statusWord p),
             .regAcc (.task t) 0x00#8 1 .read (m.setWidth 32), .memWr (.task t) r m] })

/-- The checks of steps P0, D0 and D1 (42_spi_transport.md R454, R457; 41_timer.md R428). -/
def Obligations.TransportChecks : Prop :=
  ∀ (s : State) (t : Nat) (l : Label) (c : Locals) (ps : List Phase), running s → atStep t l c ps s →
    ((l = .txp .p0 ∨ l = .txd .d0) → (c.n < 1 ∨ 32 < c.n) →
      runs [.task t] s = .next (failed t l (.invalidLength c.n) 0x06#8 [] s)) ∧
    ((l = .txp .p0 ∨ l = .txd .d0) → 1 ≤ c.n → c.n ≤ 32 →
      2 ^ s.par.timerWidth - 1 < c.n * s.par.timePerByte →
      runs [.task t] s =
        .next (failed t l (.timerTargetOutOfRange (c.n * s.par.timePerByte)) 0x0A#8 [] s)) ∧
    (l = .txd .d1 → s.owner ≠ none →
      runs [.task t] s = .next (failed t l .transactionInProgress 0x03#8 [] s)) ∧
    (l = .txd .d1 → s.owner = none →
      runs [.task t] s = .next (onTask t
        { s.taskAt t with ctx := { (s.taskAt t).ctx with cur := some ⟨.txd .d2, c⟩ } }
        { s with owner := some t }))

/-- TransmitDMA (42_spi_transport.md R457), steps D0-D16, run without another agent between. The order of the CS access and the CsChange event is the model's (log 13), as is the load value for a counter wider than 32 bits (log 18). -/
def Obligations.DmaTransactionSetup : Prop :=
  ∀ (s : State) (t : Nat) (c : Locals) (ps : List Phase), running s → atStep t (.txd .d0) c ps s →
    let T := c.n * s.par.timePerByte
    let base := s.par.blockBase
    let b := memGet s.mem c.tx.toNat
    1 ≤ c.n → c.n ≤ 32 → T ≤ 2 ^ s.par.timerWidth - 1 → s.owner = none → spiClean s = true →
    s.dma0.en = false → s.dma1.en = false → admitted s.par c.tx = true →
    runs (List.replicate 17 (.task t)) s = .next (onTask t
      { s.taskAt t with ctx := { (s.taskAt t).ctx with cur := some ⟨.txd .d17, { c with target := T }⟩ } }
      { s with
        owner := some t
        tmr := { s.tmr with load := T % 2 ^ 32, count := 0, running := true }
        dma0 := { s.dma0 with
          src := c.tx + 1, dst := base, cnt := BitVec.ofNat 16 (c.n - 1), sinc := true, dinc := false, ie := false
          en := if c.n = 1 then false else true
          done := if c.n = 1 then true else s.dma0.done }
        dma1 := { s.dma1 with
          src := base, dst := c.rx, cnt := BitVec.ofNat 16 c.n, sinc := false, dinc := true, ie := true, en := true }
        cs := ⟨true⟩
        spi := { s.spi with txbuf := b, txe := false, txdmaen := true, rxdmaen := true }
        hist := s.hist ++
          [.regAcc (.task t) 0x44#8 4 .write (BitVec.ofNat 32 T),
           .regAcc (.task t) 0x80#8 4 .write (c.tx + 1), .regAcc (.task t) 0x84#8 4 .write base,
           .regAcc (.task t) 0x88#8 4 .write (BitVec.ofNat 32 (c.n - 1)),
           .regAcc (.task t) 0x8C#8 4 .write 0x2,
           .regAcc (.task t) 0xA0#8 4 .write base, .regAcc (.task t) 0xA4#8 4 .write c.rx,
           .regAcc (.task t) 0xA8#8 4 .write (BitVec.ofNat 32 c.n),
           .regAcc (.task t) 0xAC#8 4 .write 0xD,
           .regAcc (.task t) 0x10#8 4 .write 1] ++ csEvents true s ++
          [.regAcc (.task t) 0x40#8 4 .write 0x5,
           .regAcc (.task t) 0x04#8 4 .read (statusWord s.spi),
           .memRd (.task t) c.tx b, .regAcc (.task t) 0x00#8 1 .write (b.setWidth 32),
           .regAcc (.task t) 0x08#8 4 .write 0x3, .regAcc (.task t) 0x8C#8 4 .write 0x3] })

/-- TransmitDMA (42_spi_transport.md R457, R460; 43_dma_engine.md R502), steps D17-D23. The order of the CS access and the CsChange event is the model's (log 13). -/
def Obligations.DmaTransactionFinish : Prop :=
  ∀ (s : State) (t : Nat) (c : Locals) (ps : List Phase), running s → atStep t (.txd .d17) c ps s →
    let v := (s.taskAt t).notify
    0 < v →
    (s.dma0.en = false ∨ (s.dma0.sinc, s.dma0.dinc, s.dma0.ie) = (true, false, false)) →
    let evs : List Event :=
      [.regAcc (.task t) 0x08#8 4 .write 0, .regAcc (.task t) 0x8C#8 4 .write 0x2,
       .regAcc (.task t) 0x90#8 4 .write 0x3, .regAcc (.task t) 0xB0#8 4 .write 0x3,
       .regAcc (.task t) 0x14#8 4 .write 1] ++ csEvents false s
    let k := { s.taskAt t with notify := 0 }
    let s1 : State := { s with
      spi := { s.spi with txdmaen := false, rxdmaen := false }
      dma0 := { s.dma0 with en := false, sinc := true, dinc := false, ie := false, done := false, err := false }
      dma1 := { s.dma1 with done := false, err := false }
      cs := ⟨false⟩ }
    (v = 1 → runs (List.replicate 7 (.task t)) s =
      .next (afterReturn t k 0x00#8 ps { s1 with hist := s.hist ++ evs })) ∧
    (v ≠ 1 → s.par.errorPolicy = .report → runs (List.replicate 7 (.task t)) s = .next (onTask t
      { k with ctx := Ctx.idle, result := some (0x05#8, 0x00#8) }
      { s1 with active := none, hist := s.hist ++ evs ++ [.result t 0x05#8 0x00#8] })) ∧
    (v ≠ 1 → s.par.errorPolicy = .fatal → runs (List.replicate 7 (.task t)) s = .next (onTask t
      { k with ctx := { (s.taskAt t).ctx with cur := some ⟨.txd .d23, { c with value := v }⟩ } }
      { s1 with
        halted := some (.notificationMismatch v)
        hist := s.hist ++ evs ++ [.halt (.notificationMismatch v) t (some (.step (.txd .d23)))] }))

/-- The notification timeout (43_dma_engine.md R503). -/
def Obligations.NotificationTimeout : Prop :=
  ∀ (s : State) (t : Nat) (l : Label) (c : Locals) (ps : List Phase), running s → atStep t l c ps s →
    let stuck : Prop :=
      ¬ (s.spi.txe = false ∧ s.spi.bsy = false) ∧ ¬ (s.spi.bsy = true ∧ ¬ held s) ∧
      ¬ (s.dma0.en = true ∧ s.dma0.cnt.toNat > 0 ∧ s.spi.txdmaen = true ∧ s.spi.txe = true) ∧
      ¬ (s.dma1.en = true ∧ s.dma1.cnt.toNat > 0 ∧ s.spi.rxdmaen = true ∧ s.spi.rxne = true) ∧
      s.dmairq = false
    let may : Prop := l = .txd .d17 ∧ (s.taskAt t).notify = 0 ∧
      (s.par.timeoutModel = .free ∨ (s.par.timeoutModel = .hungOnly ∧ stuck))
    (may → s.par.errorPolicy = .fatal → runs [.timeout t] s = .next { s with
      halted := some (.transferTimedOut t)
      hist := s.hist ++ [.timeout t, .halt (.transferTimedOut t) t (some (.step (.txd .d17)))] }) ∧
    (may → s.par.errorPolicy = .report → runs [.timeout t] s = .next { s with
      tasks := s.tasks.set t
        { s.taskAt t with ctx := { (s.taskAt t).ctx with cur := some ⟨.txd .t0, c⟩ } }
      hist := s.hist ++ [.timeout t] }) ∧
    (¬ may → runs [.timeout t] s = .next s)

/-- TransmitDMA's abort (42_spi_transport.md R459), run without another agent between. The order of the CS access and the CsChange event is the model's (log 13). -/
def Obligations.DmaTransactionAbort : Prop :=
  ∀ (s : State) (t : Nat) (c : Locals) (ps : List Phase), running s → rxInv s → atStep t (.txd .t0) c ps s →
    s.par.errorPolicy = .report → s.spi.txe = true → s.spi.bsy = false →
    (s.dma0.en = false ∨ (s.dma0.sinc, s.dma0.dinc, s.dma0.ie) = (true, false, false)) →
    (s.dma1.en = false ∨ (s.dma1.sinc, s.dma1.dinc, s.dma1.ie) = (false, true, true)) →
    let p := { s.spi with txdmaen := false, rxdmaen := false }
    let r := s.spi.rxbuf.getD 0
    ∃ s', runs (List.replicate 11 (.task t)) s = .next s' ∧ spiClean s' = true ∧
      s' = onTask t { s.taskAt t with ctx := Ctx.idle, notify := 0, result := some (0x04#8, 0x00#8) }
      { s with
        active := none
        owner := none
        dmairq := false
        spi := { p with rxne := false, ovr := false }
        dma0 := { s.dma0 with en := false, sinc := true, dinc := false, ie := false, done := false, err := false }
        dma1 := { s.dma1 with en := false, sinc := false, dinc := true, ie := true, done := false, err := false }
        cs := ⟨false⟩
        hist := s.hist ++
          [.regAcc (.task t) 0x08#8 4 .write 0, .regAcc (.task t) 0x8C#8 4 .write 0x2,
           .regAcc (.task t) 0xAC#8 4 .write 0xC, .regAcc (.task t) 0xC0#8 4 .write 0x1,
           .regAcc (.task t) 0x04#8 4 .read (statusWord p)] ++
          (if s.spi.rxne = true then [.regAcc (.task t) 0x00#8 1 .read (r.setWidth 32)] else []) ++
          [.regAcc (.task t) 0x04#8 4 .write 0x8, .regAcc (.task t) 0x90#8 4 .write 0x3,
           .regAcc (.task t) 0xB0#8 4 .write 0x3, .regAcc (.task t) 0x14#8 4 .write 1] ++ csEvents false s ++
          [.result t 0x04#8 0x00#8] }

/-- The copy phase (44_frame_sequencer.md R521) and its return (10_state.md R107), with the frame of its store. That a read before a refused write stays recorded is the model's reading (log 16), as is the label C(i) of the Halt event (log 28). -/
def Obligations.CopyPhase : Prop :=
  ∀ (s : State) (t i : Nat) (c : Locals) (ps : List Phase), running s → memInv s → atStep t (.copy i) c ps s →
    i < c.n →
    let d := c.dst + BitVec.ofNat 32 i
    let k := s.taskAt t
    (∀ (b : Byte) (evs : List Event),
      ((∃ bs, c.src = .lit bs ∧ bs[i]? = some b ∧ evs = []) ∨
        (∃ a, c.src = .mem a ∧ admitted s.par (a + BitVec.ofNat 32 i) = true ∧
          b = memGet s.mem (a + BitVec.ofNat 32 i).toNat ∧
          evs = [.memRd (.task t) (a + BitVec.ofNat 32 i) b])) →
      (admitted s.par d = true → ∃ m, stored m s.mem d b ∧
        let s1 : State := { s with mem := m, hist := s.hist ++ evs ++ [.memWr (.task t) d b] }
        (i + 1 < c.n → runs [.task t] s = .next (onTask t
          { k with ctx := { k.ctx with cur := some ⟨.copy (i + 1), c⟩ } } s1)) ∧
        (i + 1 = c.n → runs [.task t] s = .next (afterReturn t k 0x00#8 ps s1))) ∧
      (admitted s.par d = false → runs [.task t] s = .next { s with
        halted := some (.memoryFault d)
        hist := s.hist ++ evs ++ [.halt (.memoryFault d) t (some (.step (.copy i)))]
        curTask := t })) ∧
    (∀ a, c.src = .mem a → admitted s.par (a + BitVec.ofNat 32 i) = false →
      runs [.task t] s = .next { s with
        halted := some (.memoryFault (a + BitVec.ofNat 32 i))
        hist := s.hist ++ [.halt (.memoryFault (a + BitVec.ofNat 32 i)) t (some (.step (.copy i)))]
        curTask := t })

/-- The memory frame of every instruction: a register access reaches no data byte (20_memory.md R206, R210) and an issue starts an operation without running it (60_exceptions.md R603). -/
def Obligations.InstructionsStoreNothing : Prop :=
  ∀ (i : Instr) (s s' : State), exec i s = .next s' →
    (∀ a : Nat, memGet s'.mem a = memGet s.mem a) ∧ s'.par = s.par ∧
    ∀ t : Nat, (s'.taskAt t).prog = (s.taskAt t).prog

/-- The pending-owner token is written at exactly three places (43_dma_engine.md R500). -/
def Obligations.OwnerWrittenAtThreePlaces : Prop :=
  ∀ s s' : State, step s = .next s' → s'.owner ≠ s.owner →
    (∃ t c ps, chosen s = .task t ∧ atStep t (.txd .d1) c ps s ∧ s.owner = none ∧ s'.owner = some t) ∨
    (chosen s = .dmaHandler ∧ s.dmairq = true ∧ s.owner ≠ none ∧ s'.owner = none) ∨
    (∃ t c ps, chosen s = .task t ∧ atStep t (.txd .t3) c ps s ∧ s'.owner = none)

/-- No access reaches an address outside ADMIT (20_memory.md R200, R201); the canonical form is the model's (log 7). -/
def Obligations.MemoryInvariant : Prop :=
  ∀ s s' : State, memInv s → step s = .next s' → memInv s'

/-- The registers keep their widths (10_state.md R120), a running channel has bytes left (43_dma_engine.md R482, R487), RXNE comes with rxbuf (42_spi_transport.md R450). -/
def Obligations.UnitInvariants : Prop :=
  ∀ s s' : State, timerInv s → dmaInv s → rxInv s → step s = .next s' →
    timerInv s' ∧ dmaInv s' ∧ rxInv s'

/-- Operations are serialized (60_exceptions.md R603; 10_state.md R142). -/
def Obligations.SerialInvariant : Prop :=
  ∀ s s' : State, serialInv s → step s = .next s' → serialInv s'

/-- A line change is recorded exactly when it happens (10_state.md R161), and the count is the ticks since it was cleared (41_timer.md R430). -/
def Obligations.HistoryInvariant : Prop :=
  ∀ s s' : State, lineInv s → countInv s → step s = .next s' → lineInv s' ∧ countInv s'

/-- The invariants hold where a run starts (70_reset_and_hazards.md R700). -/
def Obligations.InvariantsAtReset : Prop :=
  (memInv State.reset ∧ timerInv State.reset ∧ dmaInv State.reset ∧ rxInv State.reset ∧
      serialInv State.reset ∧ lineInv State.reset ∧ countInv State.reset) ∧
    ∀ (par : Params) (mem : Memory) (progs : List (List Invocation)) (pin : Bool) (draws : Draws),
      let s := State.launch par mem progs pin draws
      memWf mem = true → (∀ c ∈ mem, admitted par (BitVec.ofNat 32 c.1) = true) →
      memInv s ∧ timerInv s ∧ dmaInv s ∧ rxInv s ∧ serialInv s ∧ lineInv s ∧ countInv s

/-- The reset state (70_reset_and_hazards.md R700), for every launch. -/
def Obligations.ResetState : Prop :=
  ∀ (par : Params) (mem : Memory) (progs : List (List Invocation)) (pin : Bool) (draws : Draws),
    let s := State.launch par mem progs pin draws
    (s.spi.txe, s.spi.bsy, s.spi.rxne, s.spi.ovr, s.spi.txdmaen, s.spi.rxdmaen) =
      (true, false, false, false, false, false) ∧
    s.spi.rxbuf = none ∧ s.cs.asserted = false ∧ s.ce = ⟨false, false⟩ ∧
    (s.irq.en, s.irq.falling, s.irq.pullup, s.irq.pend) = (false, false, false, false) ∧
    s.tmr = ⟨0, false, 0, false, false, false⟩ ∧
    (∀ c, s.dma c = ⟨0, 0, 0, false, false, false, false, false, false⟩) ∧
    s.dmairq = false ∧ s.owner = none ∧ s.active = none ∧
    (∀ t, (s.taskAt t).notify = 0 ∧ (s.taskAt t).ctx = Ctx.idle ∧ (s.taskAt t).result = none) ∧
    (∀ t p, progs[t]? = some p → (s.taskAt t).prog = p) ∧
    s.halted = none ∧ s.hist = [] ∧ s.mem = mem ∧ s.par = par ∧ spiClean s = true ∧
    (∀ r, r ≠ .spiDr → ∃ v, readReg r s = some (v, s)) ∧ readReg .spiDr s = none

/-- Launch well-formedness (70_reset_and_hazards.md R706). That an ill-formed launch is refused at its first step is how the model refuses it (log 12). -/
def Obligations.LaunchRefused : Prop :=
  ∀ s : State, step s = .refused .illFormedLaunch ↔
    (s.tasks = [] ∨ s.par.timerWidth < 8 ∨ s.par.timePerByte < 1 ∨ s.par.blockBase.toNat % 0x100 ≠ 0 ∨
      (∃ r ∈ s.par.admitRanges, ∃ a : Nat, r.base ≤ a ∧ a < r.base + r.size ∧
        s.par.blockBase.toNat ≤ a ∧ a ≤ s.par.blockBase.toNat + 0xFF) ∨
      (∃ i j : Nat, i < 32 ∧ j < 32 ∧
        s.par.frameTxBase + BitVec.ofNat 32 i = s.par.frameRxBase + BitVec.ofNat 32 j) ∨
      127 < s.par.initRfCh.toNat ∨ s.par.initAddr.length ≠ 5)

/-- The pulse-width law (41_timer.md R430), on states that meet countInv. -/
def Obligations.TimerWaitsNeedTicks : Prop :=
  ∀ (s : State) (t : Nat) (c : Locals) (ps : List Phase), countInv s →
    (atStep t (.txp .p9) c ps s → enabled (.task t) s = true → c.target ≤ ticksSinceClear s.hist) ∧
    (atStep t (.pulse .tp2) c ps s → enabled (.task t) s = true → 10 ≤ ticksSinceClear s.hist)
end

