-- ==== Sys2Proof/Laws/State.lean ====
section
/-! SUPPORT. The fields of the state after each named update: the updated field has the new value, every other field the old one. -/

namespace Sys2Proof.Machine

/-! ### emit -/

@[simp] theorem emit_par (s : State) (e : Event) : (s.emit e).par = s.par := rfl
@[simp] theorem emit_spi (s : State) (e : Event) : (s.emit e).spi = s.spi := rfl
@[simp] theorem emit_cs (s : State) (e : Event) : (s.emit e).cs = s.cs := rfl
@[simp] theorem emit_ce (s : State) (e : Event) : (s.emit e).ce = s.ce := rfl
@[simp] theorem emit_irq (s : State) (e : Event) : (s.emit e).irq = s.irq := rfl
@[simp] theorem emit_tmr (s : State) (e : Event) : (s.emit e).tmr = s.tmr := rfl
@[simp] theorem emit_dma0 (s : State) (e : Event) : (s.emit e).dma0 = s.dma0 := rfl
@[simp] theorem emit_dma1 (s : State) (e : Event) : (s.emit e).dma1 = s.dma1 := rfl
@[simp] theorem emit_dmairq (s : State) (e : Event) : (s.emit e).dmairq = s.dmairq := rfl
@[simp] theorem emit_owner (s : State) (e : Event) : (s.emit e).owner = s.owner := rfl
@[simp] theorem emit_active (s : State) (e : Event) : (s.emit e).active = s.active := rfl
@[simp] theorem emit_tasks (s : State) (e : Event) : (s.emit e).tasks = s.tasks := rfl
@[simp] theorem emit_halted (s : State) (e : Event) : (s.emit e).halted = s.halted := rfl
@[simp] theorem emit_mem (s : State) (e : Event) : (s.emit e).mem = s.mem := rfl
@[simp] theorem emit_hist (s : State) (e : Event) : (s.emit e).hist = s.hist ++ [e] := rfl
@[simp] theorem emit_draws (s : State) (e : Event) : (s.emit e).draws = s.draws := rfl
@[simp] theorem emit_curTask (s : State) (e : Event) : (s.emit e).curTask = s.curTask := rfl
@[simp] theorem emit_dma (s : State) (e : Event) (n : Chan) : (s.emit e).dma n = s.dma n := by
  cases n <;> rfl
@[simp] theorem emit_taskAt (s : State) (e : Event) (t : Nat) : (s.emit e).taskAt t = s.taskAt t := rfl

/-! ### setSpi -/

@[simp] theorem setSpi_par (s : State) (p : SpiState) : (s.setSpi p).par = s.par := rfl
@[simp] theorem setSpi_spi (s : State) (p : SpiState) : (s.setSpi p).spi = p := rfl
@[simp] theorem setSpi_cs (s : State) (p : SpiState) : (s.setSpi p).cs = s.cs := rfl
@[simp] theorem setSpi_ce (s : State) (p : SpiState) : (s.setSpi p).ce = s.ce := rfl
@[simp] theorem setSpi_irq (s : State) (p : SpiState) : (s.setSpi p).irq = s.irq := rfl
@[simp] theorem setSpi_tmr (s : State) (p : SpiState) : (s.setSpi p).tmr = s.tmr := rfl
@[simp] theorem setSpi_dma0 (s : State) (p : SpiState) : (s.setSpi p).dma0 = s.dma0 := rfl
@[simp] theorem setSpi_dma1 (s : State) (p : SpiState) : (s.setSpi p).dma1 = s.dma1 := rfl
@[simp] theorem setSpi_dmairq (s : State) (p : SpiState) : (s.setSpi p).dmairq = s.dmairq := rfl
@[simp] theorem setSpi_owner (s : State) (p : SpiState) : (s.setSpi p).owner = s.owner := rfl
@[simp] theorem setSpi_active (s : State) (p : SpiState) : (s.setSpi p).active = s.active := rfl
@[simp] theorem setSpi_tasks (s : State) (p : SpiState) : (s.setSpi p).tasks = s.tasks := rfl
@[simp] theorem setSpi_halted (s : State) (p : SpiState) : (s.setSpi p).halted = s.halted := rfl
@[simp] theorem setSpi_mem (s : State) (p : SpiState) : (s.setSpi p).mem = s.mem := rfl
@[simp] theorem setSpi_hist (s : State) (p : SpiState) : (s.setSpi p).hist = s.hist := rfl
@[simp] theorem setSpi_draws (s : State) (p : SpiState) : (s.setSpi p).draws = s.draws := rfl
@[simp] theorem setSpi_curTask (s : State) (p : SpiState) : (s.setSpi p).curTask = s.curTask := rfl
@[simp] theorem setSpi_dma (s : State) (p : SpiState) (n : Chan) : (s.setSpi p).dma n = s.dma n := by
  cases n <;> rfl
@[simp] theorem setSpi_taskAt (s : State) (p : SpiState) (t : Nat) : (s.setSpi p).taskAt t = s.taskAt t := rfl

/-! ### setCs -/

@[simp] theorem setCs_par (s : State) (c : CsState) : (s.setCs c).par = s.par := rfl
@[simp] theorem setCs_spi (s : State) (c : CsState) : (s.setCs c).spi = s.spi := rfl
@[simp] theorem setCs_cs (s : State) (c : CsState) : (s.setCs c).cs = c := rfl
@[simp] theorem setCs_ce (s : State) (c : CsState) : (s.setCs c).ce = s.ce := rfl
@[simp] theorem setCs_irq (s : State) (c : CsState) : (s.setCs c).irq = s.irq := rfl
@[simp] theorem setCs_tmr (s : State) (c : CsState) : (s.setCs c).tmr = s.tmr := rfl
@[simp] theorem setCs_dma0 (s : State) (c : CsState) : (s.setCs c).dma0 = s.dma0 := rfl
@[simp] theorem setCs_dma1 (s : State) (c : CsState) : (s.setCs c).dma1 = s.dma1 := rfl
@[simp] theorem setCs_dmairq (s : State) (c : CsState) : (s.setCs c).dmairq = s.dmairq := rfl
@[simp] theorem setCs_owner (s : State) (c : CsState) : (s.setCs c).owner = s.owner := rfl
@[simp] theorem setCs_active (s : State) (c : CsState) : (s.setCs c).active = s.active := rfl
@[simp] theorem setCs_tasks (s : State) (c : CsState) : (s.setCs c).tasks = s.tasks := rfl
@[simp] theorem setCs_halted (s : State) (c : CsState) : (s.setCs c).halted = s.halted := rfl
@[simp] theorem setCs_mem (s : State) (c : CsState) : (s.setCs c).mem = s.mem := rfl
@[simp] theorem setCs_hist (s : State) (c : CsState) : (s.setCs c).hist = s.hist := rfl
@[simp] theorem setCs_draws (s : State) (c : CsState) : (s.setCs c).draws = s.draws := rfl
@[simp] theorem setCs_curTask (s : State) (c : CsState) : (s.setCs c).curTask = s.curTask := rfl
@[simp] theorem setCs_dma (s : State) (c : CsState) (n : Chan) : (s.setCs c).dma n = s.dma n := by
  cases n <;> rfl
@[simp] theorem setCs_taskAt (s : State) (c : CsState) (t : Nat) : (s.setCs c).taskAt t = s.taskAt t := rfl

/-! ### setCe -/

@[simp] theorem setCe_par (s : State) (c : CeState) : (s.setCe c).par = s.par := rfl
@[simp] theorem setCe_spi (s : State) (c : CeState) : (s.setCe c).spi = s.spi := rfl
@[simp] theorem setCe_cs (s : State) (c : CeState) : (s.setCe c).cs = s.cs := rfl
@[simp] theorem setCe_ce (s : State) (c : CeState) : (s.setCe c).ce = c := rfl
@[simp] theorem setCe_irq (s : State) (c : CeState) : (s.setCe c).irq = s.irq := rfl
@[simp] theorem setCe_tmr (s : State) (c : CeState) : (s.setCe c).tmr = s.tmr := rfl
@[simp] theorem setCe_dma0 (s : State) (c : CeState) : (s.setCe c).dma0 = s.dma0 := rfl
@[simp] theorem setCe_dma1 (s : State) (c : CeState) : (s.setCe c).dma1 = s.dma1 := rfl
@[simp] theorem setCe_dmairq (s : State) (c : CeState) : (s.setCe c).dmairq = s.dmairq := rfl
@[simp] theorem setCe_owner (s : State) (c : CeState) : (s.setCe c).owner = s.owner := rfl
@[simp] theorem setCe_active (s : State) (c : CeState) : (s.setCe c).active = s.active := rfl
@[simp] theorem setCe_tasks (s : State) (c : CeState) : (s.setCe c).tasks = s.tasks := rfl
@[simp] theorem setCe_halted (s : State) (c : CeState) : (s.setCe c).halted = s.halted := rfl
@[simp] theorem setCe_mem (s : State) (c : CeState) : (s.setCe c).mem = s.mem := rfl
@[simp] theorem setCe_hist (s : State) (c : CeState) : (s.setCe c).hist = s.hist := rfl
@[simp] theorem setCe_draws (s : State) (c : CeState) : (s.setCe c).draws = s.draws := rfl
@[simp] theorem setCe_curTask (s : State) (c : CeState) : (s.setCe c).curTask = s.curTask := rfl
@[simp] theorem setCe_dma (s : State) (c : CeState) (n : Chan) : (s.setCe c).dma n = s.dma n := by
  cases n <;> rfl
@[simp] theorem setCe_taskAt (s : State) (c : CeState) (t : Nat) : (s.setCe c).taskAt t = s.taskAt t := rfl

/-! ### setIrq -/

@[simp] theorem setIrq_par (s : State) (q : IrqState) : (s.setIrq q).par = s.par := rfl
@[simp] theorem setIrq_spi (s : State) (q : IrqState) : (s.setIrq q).spi = s.spi := rfl
@[simp] theorem setIrq_cs (s : State) (q : IrqState) : (s.setIrq q).cs = s.cs := rfl
@[simp] theorem setIrq_ce (s : State) (q : IrqState) : (s.setIrq q).ce = s.ce := rfl
@[simp] theorem setIrq_irq (s : State) (q : IrqState) : (s.setIrq q).irq = q := rfl
@[simp] theorem setIrq_tmr (s : State) (q : IrqState) : (s.setIrq q).tmr = s.tmr := rfl
@[simp] theorem setIrq_dma0 (s : State) (q : IrqState) : (s.setIrq q).dma0 = s.dma0 := rfl
@[simp] theorem setIrq_dma1 (s : State) (q : IrqState) : (s.setIrq q).dma1 = s.dma1 := rfl
@[simp] theorem setIrq_dmairq (s : State) (q : IrqState) : (s.setIrq q).dmairq = s.dmairq := rfl
@[simp] theorem setIrq_owner (s : State) (q : IrqState) : (s.setIrq q).owner = s.owner := rfl
@[simp] theorem setIrq_active (s : State) (q : IrqState) : (s.setIrq q).active = s.active := rfl
@[simp] theorem setIrq_tasks (s : State) (q : IrqState) : (s.setIrq q).tasks = s.tasks := rfl
@[simp] theorem setIrq_halted (s : State) (q : IrqState) : (s.setIrq q).halted = s.halted := rfl
@[simp] theorem setIrq_mem (s : State) (q : IrqState) : (s.setIrq q).mem = s.mem := rfl
@[simp] theorem setIrq_hist (s : State) (q : IrqState) : (s.setIrq q).hist = s.hist := rfl
@[simp] theorem setIrq_draws (s : State) (q : IrqState) : (s.setIrq q).draws = s.draws := rfl
@[simp] theorem setIrq_curTask (s : State) (q : IrqState) : (s.setIrq q).curTask = s.curTask := rfl
@[simp] theorem setIrq_dma (s : State) (q : IrqState) (n : Chan) : (s.setIrq q).dma n = s.dma n := by
  cases n <;> rfl
@[simp] theorem setIrq_taskAt (s : State) (q : IrqState) (t : Nat) : (s.setIrq q).taskAt t = s.taskAt t := rfl

/-! ### setTmr -/

@[simp] theorem setTmr_par (s : State) (m : TimerState) : (s.setTmr m).par = s.par := rfl
@[simp] theorem setTmr_spi (s : State) (m : TimerState) : (s.setTmr m).spi = s.spi := rfl
@[simp] theorem setTmr_cs (s : State) (m : TimerState) : (s.setTmr m).cs = s.cs := rfl
@[simp] theorem setTmr_ce (s : State) (m : TimerState) : (s.setTmr m).ce = s.ce := rfl
@[simp] theorem setTmr_irq (s : State) (m : TimerState) : (s.setTmr m).irq = s.irq := rfl
@[simp] theorem setTmr_tmr (s : State) (m : TimerState) : (s.setTmr m).tmr = m := rfl
@[simp] theorem setTmr_dma0 (s : State) (m : TimerState) : (s.setTmr m).dma0 = s.dma0 := rfl
@[simp] theorem setTmr_dma1 (s : State) (m : TimerState) : (s.setTmr m).dma1 = s.dma1 := rfl
@[simp] theorem setTmr_dmairq (s : State) (m : TimerState) : (s.setTmr m).dmairq = s.dmairq := rfl
@[simp] theorem setTmr_owner (s : State) (m : TimerState) : (s.setTmr m).owner = s.owner := rfl
@[simp] theorem setTmr_active (s : State) (m : TimerState) : (s.setTmr m).active = s.active := rfl
@[simp] theorem setTmr_tasks (s : State) (m : TimerState) : (s.setTmr m).tasks = s.tasks := rfl
@[simp] theorem setTmr_halted (s : State) (m : TimerState) : (s.setTmr m).halted = s.halted := rfl
@[simp] theorem setTmr_mem (s : State) (m : TimerState) : (s.setTmr m).mem = s.mem := rfl
@[simp] theorem setTmr_hist (s : State) (m : TimerState) : (s.setTmr m).hist = s.hist := rfl
@[simp] theorem setTmr_draws (s : State) (m : TimerState) : (s.setTmr m).draws = s.draws := rfl
@[simp] theorem setTmr_curTask (s : State) (m : TimerState) : (s.setTmr m).curTask = s.curTask := rfl
@[simp] theorem setTmr_dma (s : State) (m : TimerState) (n : Chan) : (s.setTmr m).dma n = s.dma n := by
  cases n <;> rfl
@[simp] theorem setTmr_taskAt (s : State) (m : TimerState) (t : Nat) : (s.setTmr m).taskAt t = s.taskAt t := rfl

/-! ### setDmairq -/

@[simp] theorem setDmairq_par (s : State) (b : Bool) : (s.setDmairq b).par = s.par := rfl
@[simp] theorem setDmairq_spi (s : State) (b : Bool) : (s.setDmairq b).spi = s.spi := rfl
@[simp] theorem setDmairq_cs (s : State) (b : Bool) : (s.setDmairq b).cs = s.cs := rfl
@[simp] theorem setDmairq_ce (s : State) (b : Bool) : (s.setDmairq b).ce = s.ce := rfl
@[simp] theorem setDmairq_irq (s : State) (b : Bool) : (s.setDmairq b).irq = s.irq := rfl
@[simp] theorem setDmairq_tmr (s : State) (b : Bool) : (s.setDmairq b).tmr = s.tmr := rfl
@[simp] theorem setDmairq_dma0 (s : State) (b : Bool) : (s.setDmairq b).dma0 = s.dma0 := rfl
@[simp] theorem setDmairq_dma1 (s : State) (b : Bool) : (s.setDmairq b).dma1 = s.dma1 := rfl
@[simp] theorem setDmairq_dmairq (s : State) (b : Bool) : (s.setDmairq b).dmairq = b := rfl
@[simp] theorem setDmairq_owner (s : State) (b : Bool) : (s.setDmairq b).owner = s.owner := rfl
@[simp] theorem setDmairq_active (s : State) (b : Bool) : (s.setDmairq b).active = s.active := rfl
@[simp] theorem setDmairq_tasks (s : State) (b : Bool) : (s.setDmairq b).tasks = s.tasks := rfl
@[simp] theorem setDmairq_halted (s : State) (b : Bool) : (s.setDmairq b).halted = s.halted := rfl
@[simp] theorem setDmairq_mem (s : State) (b : Bool) : (s.setDmairq b).mem = s.mem := rfl
@[simp] theorem setDmairq_hist (s : State) (b : Bool) : (s.setDmairq b).hist = s.hist := rfl
@[simp] theorem setDmairq_draws (s : State) (b : Bool) : (s.setDmairq b).draws = s.draws := rfl
@[simp] theorem setDmairq_curTask (s : State) (b : Bool) : (s.setDmairq b).curTask = s.curTask := rfl
@[simp] theorem setDmairq_dma (s : State) (b : Bool) (n : Chan) : (s.setDmairq b).dma n = s.dma n := by
  cases n <;> rfl
@[simp] theorem setDmairq_taskAt (s : State) (b : Bool) (t : Nat) : (s.setDmairq b).taskAt t = s.taskAt t := rfl

/-! ### setOwner -/

@[simp] theorem setOwner_par (s : State) (o : Option Nat) : (s.setOwner o).par = s.par := rfl
@[simp] theorem setOwner_spi (s : State) (o : Option Nat) : (s.setOwner o).spi = s.spi := rfl
@[simp] theorem setOwner_cs (s : State) (o : Option Nat) : (s.setOwner o).cs = s.cs := rfl
@[simp] theorem setOwner_ce (s : State) (o : Option Nat) : (s.setOwner o).ce = s.ce := rfl
@[simp] theorem setOwner_irq (s : State) (o : Option Nat) : (s.setOwner o).irq = s.irq := rfl
@[simp] theorem setOwner_tmr (s : State) (o : Option Nat) : (s.setOwner o).tmr = s.tmr := rfl
@[simp] theorem setOwner_dma0 (s : State) (o : Option Nat) : (s.setOwner o).dma0 = s.dma0 := rfl
@[simp] theorem setOwner_dma1 (s : State) (o : Option Nat) : (s.setOwner o).dma1 = s.dma1 := rfl
@[simp] theorem setOwner_dmairq (s : State) (o : Option Nat) : (s.setOwner o).dmairq = s.dmairq := rfl
@[simp] theorem setOwner_owner (s : State) (o : Option Nat) : (s.setOwner o).owner = o := rfl
@[simp] theorem setOwner_active (s : State) (o : Option Nat) : (s.setOwner o).active = s.active := rfl
@[simp] theorem setOwner_tasks (s : State) (o : Option Nat) : (s.setOwner o).tasks = s.tasks := rfl
@[simp] theorem setOwner_halted (s : State) (o : Option Nat) : (s.setOwner o).halted = s.halted := rfl
@[simp] theorem setOwner_mem (s : State) (o : Option Nat) : (s.setOwner o).mem = s.mem := rfl
@[simp] theorem setOwner_hist (s : State) (o : Option Nat) : (s.setOwner o).hist = s.hist := rfl
@[simp] theorem setOwner_draws (s : State) (o : Option Nat) : (s.setOwner o).draws = s.draws := rfl
@[simp] theorem setOwner_curTask (s : State) (o : Option Nat) : (s.setOwner o).curTask = s.curTask := rfl
@[simp] theorem setOwner_dma (s : State) (o : Option Nat) (n : Chan) : (s.setOwner o).dma n = s.dma n := by
  cases n <;> rfl
@[simp] theorem setOwner_taskAt (s : State) (o : Option Nat) (t : Nat) : (s.setOwner o).taskAt t = s.taskAt t := rfl

/-! ### setActive -/

@[simp] theorem setActive_par (s : State) (a : Option Nat) : (s.setActive a).par = s.par := rfl
@[simp] theorem setActive_spi (s : State) (a : Option Nat) : (s.setActive a).spi = s.spi := rfl
@[simp] theorem setActive_cs (s : State) (a : Option Nat) : (s.setActive a).cs = s.cs := rfl
@[simp] theorem setActive_ce (s : State) (a : Option Nat) : (s.setActive a).ce = s.ce := rfl
@[simp] theorem setActive_irq (s : State) (a : Option Nat) : (s.setActive a).irq = s.irq := rfl
@[simp] theorem setActive_tmr (s : State) (a : Option Nat) : (s.setActive a).tmr = s.tmr := rfl
@[simp] theorem setActive_dma0 (s : State) (a : Option Nat) : (s.setActive a).dma0 = s.dma0 := rfl
@[simp] theorem setActive_dma1 (s : State) (a : Option Nat) : (s.setActive a).dma1 = s.dma1 := rfl
@[simp] theorem setActive_dmairq (s : State) (a : Option Nat) : (s.setActive a).dmairq = s.dmairq := rfl
@[simp] theorem setActive_owner (s : State) (a : Option Nat) : (s.setActive a).owner = s.owner := rfl
@[simp] theorem setActive_active (s : State) (a : Option Nat) : (s.setActive a).active = a := rfl
@[simp] theorem setActive_tasks (s : State) (a : Option Nat) : (s.setActive a).tasks = s.tasks := rfl
@[simp] theorem setActive_halted (s : State) (a : Option Nat) : (s.setActive a).halted = s.halted := rfl
@[simp] theorem setActive_mem (s : State) (a : Option Nat) : (s.setActive a).mem = s.mem := rfl
@[simp] theorem setActive_hist (s : State) (a : Option Nat) : (s.setActive a).hist = s.hist := rfl
@[simp] theorem setActive_draws (s : State) (a : Option Nat) : (s.setActive a).draws = s.draws := rfl
@[simp] theorem setActive_curTask (s : State) (a : Option Nat) : (s.setActive a).curTask = s.curTask := rfl
@[simp] theorem setActive_dma (s : State) (a : Option Nat) (n : Chan) : (s.setActive a).dma n = s.dma n := by
  cases n <;> rfl
@[simp] theorem setActive_taskAt (s : State) (a : Option Nat) (t : Nat) : (s.setActive a).taskAt t = s.taskAt t := rfl

/-! ### setHalted -/

@[simp] theorem setHalted_par (s : State) (h : Option Abnormal) : (s.setHalted h).par = s.par := rfl
@[simp] theorem setHalted_spi (s : State) (h : Option Abnormal) : (s.setHalted h).spi = s.spi := rfl
@[simp] theorem setHalted_cs (s : State) (h : Option Abnormal) : (s.setHalted h).cs = s.cs := rfl
@[simp] theorem setHalted_ce (s : State) (h : Option Abnormal) : (s.setHalted h).ce = s.ce := rfl
@[simp] theorem setHalted_irq (s : State) (h : Option Abnormal) : (s.setHalted h).irq = s.irq := rfl
@[simp] theorem setHalted_tmr (s : State) (h : Option Abnormal) : (s.setHalted h).tmr = s.tmr := rfl
@[simp] theorem setHalted_dma0 (s : State) (h : Option Abnormal) : (s.setHalted h).dma0 = s.dma0 := rfl
@[simp] theorem setHalted_dma1 (s : State) (h : Option Abnormal) : (s.setHalted h).dma1 = s.dma1 := rfl
@[simp] theorem setHalted_dmairq (s : State) (h : Option Abnormal) : (s.setHalted h).dmairq = s.dmairq := rfl
@[simp] theorem setHalted_owner (s : State) (h : Option Abnormal) : (s.setHalted h).owner = s.owner := rfl
@[simp] theorem setHalted_active (s : State) (h : Option Abnormal) : (s.setHalted h).active = s.active := rfl
@[simp] theorem setHalted_tasks (s : State) (h : Option Abnormal) : (s.setHalted h).tasks = s.tasks := rfl
@[simp] theorem setHalted_halted (s : State) (h : Option Abnormal) : (s.setHalted h).halted = h := rfl
@[simp] theorem setHalted_mem (s : State) (h : Option Abnormal) : (s.setHalted h).mem = s.mem := rfl
@[simp] theorem setHalted_hist (s : State) (h : Option Abnormal) : (s.setHalted h).hist = s.hist := rfl
@[simp] theorem setHalted_draws (s : State) (h : Option Abnormal) : (s.setHalted h).draws = s.draws := rfl
@[simp] theorem setHalted_curTask (s : State) (h : Option Abnormal) : (s.setHalted h).curTask = s.curTask := rfl
@[simp] theorem setHalted_dma (s : State) (h : Option Abnormal) (n : Chan) : (s.setHalted h).dma n = s.dma n := by
  cases n <;> rfl
@[simp] theorem setHalted_taskAt (s : State) (h : Option Abnormal) (t : Nat) : (s.setHalted h).taskAt t = s.taskAt t := rfl

/-! ### setMem -/

@[simp] theorem setMem_par (s : State) (m : Memory) : (s.setMem m).par = s.par := rfl
@[simp] theorem setMem_spi (s : State) (m : Memory) : (s.setMem m).spi = s.spi := rfl
@[simp] theorem setMem_cs (s : State) (m : Memory) : (s.setMem m).cs = s.cs := rfl
@[simp] theorem setMem_ce (s : State) (m : Memory) : (s.setMem m).ce = s.ce := rfl
@[simp] theorem setMem_irq (s : State) (m : Memory) : (s.setMem m).irq = s.irq := rfl
@[simp] theorem setMem_tmr (s : State) (m : Memory) : (s.setMem m).tmr = s.tmr := rfl
@[simp] theorem setMem_dma0 (s : State) (m : Memory) : (s.setMem m).dma0 = s.dma0 := rfl
@[simp] theorem setMem_dma1 (s : State) (m : Memory) : (s.setMem m).dma1 = s.dma1 := rfl
@[simp] theorem setMem_dmairq (s : State) (m : Memory) : (s.setMem m).dmairq = s.dmairq := rfl
@[simp] theorem setMem_owner (s : State) (m : Memory) : (s.setMem m).owner = s.owner := rfl
@[simp] theorem setMem_active (s : State) (m : Memory) : (s.setMem m).active = s.active := rfl
@[simp] theorem setMem_tasks (s : State) (m : Memory) : (s.setMem m).tasks = s.tasks := rfl
@[simp] theorem setMem_halted (s : State) (m : Memory) : (s.setMem m).halted = s.halted := rfl
@[simp] theorem setMem_mem (s : State) (m : Memory) : (s.setMem m).mem = m := rfl
@[simp] theorem setMem_hist (s : State) (m : Memory) : (s.setMem m).hist = s.hist := rfl
@[simp] theorem setMem_draws (s : State) (m : Memory) : (s.setMem m).draws = s.draws := rfl
@[simp] theorem setMem_curTask (s : State) (m : Memory) : (s.setMem m).curTask = s.curTask := rfl
@[simp] theorem setMem_dma (s : State) (m : Memory) (n : Chan) : (s.setMem m).dma n = s.dma n := by
  cases n <;> rfl
@[simp] theorem setMem_taskAt (s : State) (m : Memory) (t : Nat) : (s.setMem m).taskAt t = s.taskAt t := rfl

/-! ### setDraws -/

@[simp] theorem setDraws_par (s : State) (d : Draws) : (s.setDraws d).par = s.par := rfl
@[simp] theorem setDraws_spi (s : State) (d : Draws) : (s.setDraws d).spi = s.spi := rfl
@[simp] theorem setDraws_cs (s : State) (d : Draws) : (s.setDraws d).cs = s.cs := rfl
@[simp] theorem setDraws_ce (s : State) (d : Draws) : (s.setDraws d).ce = s.ce := rfl
@[simp] theorem setDraws_irq (s : State) (d : Draws) : (s.setDraws d).irq = s.irq := rfl
@[simp] theorem setDraws_tmr (s : State) (d : Draws) : (s.setDraws d).tmr = s.tmr := rfl
@[simp] theorem setDraws_dma0 (s : State) (d : Draws) : (s.setDraws d).dma0 = s.dma0 := rfl
@[simp] theorem setDraws_dma1 (s : State) (d : Draws) : (s.setDraws d).dma1 = s.dma1 := rfl
@[simp] theorem setDraws_dmairq (s : State) (d : Draws) : (s.setDraws d).dmairq = s.dmairq := rfl
@[simp] theorem setDraws_owner (s : State) (d : Draws) : (s.setDraws d).owner = s.owner := rfl
@[simp] theorem setDraws_active (s : State) (d : Draws) : (s.setDraws d).active = s.active := rfl
@[simp] theorem setDraws_tasks (s : State) (d : Draws) : (s.setDraws d).tasks = s.tasks := rfl
@[simp] theorem setDraws_halted (s : State) (d : Draws) : (s.setDraws d).halted = s.halted := rfl
@[simp] theorem setDraws_mem (s : State) (d : Draws) : (s.setDraws d).mem = s.mem := rfl
@[simp] theorem setDraws_hist (s : State) (d : Draws) : (s.setDraws d).hist = s.hist := rfl
@[simp] theorem setDraws_draws (s : State) (d : Draws) : (s.setDraws d).draws = d := rfl
@[simp] theorem setDraws_curTask (s : State) (d : Draws) : (s.setDraws d).curTask = s.curTask := rfl
@[simp] theorem setDraws_dma (s : State) (d : Draws) (n : Chan) : (s.setDraws d).dma n = s.dma n := by
  cases n <;> rfl
@[simp] theorem setDraws_taskAt (s : State) (d : Draws) (t : Nat) : (s.setDraws d).taskAt t = s.taskAt t := rfl

/-! ### setCurTask -/

@[simp] theorem setCurTask_par (s : State) (t : Nat) : (s.setCurTask t).par = s.par := rfl
@[simp] theorem setCurTask_spi (s : State) (t : Nat) : (s.setCurTask t).spi = s.spi := rfl
@[simp] theorem setCurTask_cs (s : State) (t : Nat) : (s.setCurTask t).cs = s.cs := rfl
@[simp] theorem setCurTask_ce (s : State) (t : Nat) : (s.setCurTask t).ce = s.ce := rfl
@[simp] theorem setCurTask_irq (s : State) (t : Nat) : (s.setCurTask t).irq = s.irq := rfl
@[simp] theorem setCurTask_tmr (s : State) (t : Nat) : (s.setCurTask t).tmr = s.tmr := rfl
@[simp] theorem setCurTask_dma0 (s : State) (t : Nat) : (s.setCurTask t).dma0 = s.dma0 := rfl
@[simp] theorem setCurTask_dma1 (s : State) (t : Nat) : (s.setCurTask t).dma1 = s.dma1 := rfl
@[simp] theorem setCurTask_dmairq (s : State) (t : Nat) : (s.setCurTask t).dmairq = s.dmairq := rfl
@[simp] theorem setCurTask_owner (s : State) (t : Nat) : (s.setCurTask t).owner = s.owner := rfl
@[simp] theorem setCurTask_active (s : State) (t : Nat) : (s.setCurTask t).active = s.active := rfl
@[simp] theorem setCurTask_tasks (s : State) (t : Nat) : (s.setCurTask t).tasks = s.tasks := rfl
@[simp] theorem setCurTask_halted (s : State) (t : Nat) : (s.setCurTask t).halted = s.halted := rfl
@[simp] theorem setCurTask_mem (s : State) (t : Nat) : (s.setCurTask t).mem = s.mem := rfl
@[simp] theorem setCurTask_hist (s : State) (t : Nat) : (s.setCurTask t).hist = s.hist := rfl
@[simp] theorem setCurTask_draws (s : State) (t : Nat) : (s.setCurTask t).draws = s.draws := rfl
@[simp] theorem setCurTask_curTask (s : State) (t : Nat) : (s.setCurTask t).curTask = t := rfl
@[simp] theorem setCurTask_dma (s : State) (t : Nat) (n : Chan) : (s.setCurTask t).dma n = s.dma n := by
  cases n <;> rfl
@[simp] theorem setCurTask_taskAt (s : State) (u : Nat) (t : Nat) : (s.setCurTask u).taskAt t = s.taskAt t := rfl

/-! ### setTask -/

@[simp] theorem setTask_par (s : State) (t : Nat) (k : TaskState) : (s.setTask t k).par = s.par := rfl
@[simp] theorem setTask_spi (s : State) (t : Nat) (k : TaskState) : (s.setTask t k).spi = s.spi := rfl
@[simp] theorem setTask_cs (s : State) (t : Nat) (k : TaskState) : (s.setTask t k).cs = s.cs := rfl
@[simp] theorem setTask_ce (s : State) (t : Nat) (k : TaskState) : (s.setTask t k).ce = s.ce := rfl
@[simp] theorem setTask_irq (s : State) (t : Nat) (k : TaskState) : (s.setTask t k).irq = s.irq := rfl
@[simp] theorem setTask_tmr (s : State) (t : Nat) (k : TaskState) : (s.setTask t k).tmr = s.tmr := rfl
@[simp] theorem setTask_dma0 (s : State) (t : Nat) (k : TaskState) : (s.setTask t k).dma0 = s.dma0 := rfl
@[simp] theorem setTask_dma1 (s : State) (t : Nat) (k : TaskState) : (s.setTask t k).dma1 = s.dma1 := rfl
@[simp] theorem setTask_dmairq (s : State) (t : Nat) (k : TaskState) : (s.setTask t k).dmairq = s.dmairq := rfl
@[simp] theorem setTask_owner (s : State) (t : Nat) (k : TaskState) : (s.setTask t k).owner = s.owner := rfl
@[simp] theorem setTask_active (s : State) (t : Nat) (k : TaskState) : (s.setTask t k).active = s.active := rfl
@[simp] theorem setTask_tasks (s : State) (t : Nat) (k : TaskState) : (s.setTask t k).tasks = s.tasks.set t k := rfl
@[simp] theorem setTask_halted (s : State) (t : Nat) (k : TaskState) : (s.setTask t k).halted = s.halted := rfl
@[simp] theorem setTask_mem (s : State) (t : Nat) (k : TaskState) : (s.setTask t k).mem = s.mem := rfl
@[simp] theorem setTask_hist (s : State) (t : Nat) (k : TaskState) : (s.setTask t k).hist = s.hist := rfl
@[simp] theorem setTask_draws (s : State) (t : Nat) (k : TaskState) : (s.setTask t k).draws = s.draws := rfl
@[simp] theorem setTask_curTask (s : State) (t : Nat) (k : TaskState) : (s.setTask t k).curTask = s.curTask := rfl
@[simp] theorem setTask_dma (s : State) (t : Nat) (k : TaskState) (n : Chan) : (s.setTask t k).dma n = s.dma n := by
  cases n <;> rfl

/-! ### setCtx -/

@[simp] theorem setCtx_par (s : State) (t : Nat) (c : Ctx) : (s.setCtx t c).par = s.par := rfl
@[simp] theorem setCtx_spi (s : State) (t : Nat) (c : Ctx) : (s.setCtx t c).spi = s.spi := rfl
@[simp] theorem setCtx_cs (s : State) (t : Nat) (c : Ctx) : (s.setCtx t c).cs = s.cs := rfl
@[simp] theorem setCtx_ce (s : State) (t : Nat) (c : Ctx) : (s.setCtx t c).ce = s.ce := rfl
@[simp] theorem setCtx_irq (s : State) (t : Nat) (c : Ctx) : (s.setCtx t c).irq = s.irq := rfl
@[simp] theorem setCtx_tmr (s : State) (t : Nat) (c : Ctx) : (s.setCtx t c).tmr = s.tmr := rfl
@[simp] theorem setCtx_dma0 (s : State) (t : Nat) (c : Ctx) : (s.setCtx t c).dma0 = s.dma0 := rfl
@[simp] theorem setCtx_dma1 (s : State) (t : Nat) (c : Ctx) : (s.setCtx t c).dma1 = s.dma1 := rfl
@[simp] theorem setCtx_dmairq (s : State) (t : Nat) (c : Ctx) : (s.setCtx t c).dmairq = s.dmairq := rfl
@[simp] theorem setCtx_owner (s : State) (t : Nat) (c : Ctx) : (s.setCtx t c).owner = s.owner := rfl
@[simp] theorem setCtx_active (s : State) (t : Nat) (c : Ctx) : (s.setCtx t c).active = s.active := rfl
@[simp] theorem setCtx_halted (s : State) (t : Nat) (c : Ctx) : (s.setCtx t c).halted = s.halted := rfl
@[simp] theorem setCtx_mem (s : State) (t : Nat) (c : Ctx) : (s.setCtx t c).mem = s.mem := rfl
@[simp] theorem setCtx_hist (s : State) (t : Nat) (c : Ctx) : (s.setCtx t c).hist = s.hist := rfl
@[simp] theorem setCtx_draws (s : State) (t : Nat) (c : Ctx) : (s.setCtx t c).draws = s.draws := rfl
@[simp] theorem setCtx_curTask (s : State) (t : Nat) (c : Ctx) : (s.setCtx t c).curTask = s.curTask := rfl
@[simp] theorem setCtx_dma (s : State) (t : Nat) (c : Ctx) (n : Chan) : (s.setCtx t c).dma n = s.dma n := by
  cases n <;> rfl

/-! ### setResult -/

@[simp] theorem setResult_par (s : State) (t : Nat) (code data : Byte) : (s.setResult t code data).par = s.par := rfl
@[simp] theorem setResult_spi (s : State) (t : Nat) (code data : Byte) : (s.setResult t code data).spi = s.spi := rfl
@[simp] theorem setResult_cs (s : State) (t : Nat) (code data : Byte) : (s.setResult t code data).cs = s.cs := rfl
@[simp] theorem setResult_ce (s : State) (t : Nat) (code data : Byte) : (s.setResult t code data).ce = s.ce := rfl
@[simp] theorem setResult_irq (s : State) (t : Nat) (code data : Byte) : (s.setResult t code data).irq = s.irq := rfl
@[simp] theorem setResult_tmr (s : State) (t : Nat) (code data : Byte) : (s.setResult t code data).tmr = s.tmr := rfl
@[simp] theorem setResult_dma0 (s : State) (t : Nat) (code data : Byte) : (s.setResult t code data).dma0 = s.dma0 := rfl
@[simp] theorem setResult_dma1 (s : State) (t : Nat) (code data : Byte) : (s.setResult t code data).dma1 = s.dma1 := rfl
@[simp] theorem setResult_dmairq (s : State) (t : Nat) (code data : Byte) : (s.setResult t code data).dmairq = s.dmairq := rfl
@[simp] theorem setResult_owner (s : State) (t : Nat) (code data : Byte) : (s.setResult t code data).owner = s.owner := rfl
@[simp] theorem setResult_active (s : State) (t : Nat) (code data : Byte) : (s.setResult t code data).active = s.active := rfl
@[simp] theorem setResult_halted (s : State) (t : Nat) (code data : Byte) : (s.setResult t code data).halted = s.halted := rfl
@[simp] theorem setResult_mem (s : State) (t : Nat) (code data : Byte) : (s.setResult t code data).mem = s.mem := rfl
@[simp] theorem setResult_hist (s : State) (t : Nat) (code data : Byte) : (s.setResult t code data).hist = s.hist := rfl
@[simp] theorem setResult_draws (s : State) (t : Nat) (code data : Byte) : (s.setResult t code data).draws = s.draws := rfl
@[simp] theorem setResult_curTask (s : State) (t : Nat) (code data : Byte) : (s.setResult t code data).curTask = s.curTask := rfl
@[simp] theorem setResult_dma (s : State) (t : Nat) (code data : Byte) (n : Chan) : (s.setResult t code data).dma n = s.dma n := by
  cases n <;> rfl

/-! ### setNotify -/

@[simp] theorem setNotify_par (s : State) (t v : Nat) : (s.setNotify t v).par = s.par := rfl
@[simp] theorem setNotify_spi (s : State) (t v : Nat) : (s.setNotify t v).spi = s.spi := rfl
@[simp] theorem setNotify_cs (s : State) (t v : Nat) : (s.setNotify t v).cs = s.cs := rfl
@[simp] theorem setNotify_ce (s : State) (t v : Nat) : (s.setNotify t v).ce = s.ce := rfl
@[simp] theorem setNotify_irq (s : State) (t v : Nat) : (s.setNotify t v).irq = s.irq := rfl
@[simp] theorem setNotify_tmr (s : State) (t v : Nat) : (s.setNotify t v).tmr = s.tmr := rfl
@[simp] theorem setNotify_dma0 (s : State) (t v : Nat) : (s.setNotify t v).dma0 = s.dma0 := rfl
@[simp] theorem setNotify_dma1 (s : State) (t v : Nat) : (s.setNotify t v).dma1 = s.dma1 := rfl
@[simp] theorem setNotify_dmairq (s : State) (t v : Nat) : (s.setNotify t v).dmairq = s.dmairq := rfl
@[simp] theorem setNotify_owner (s : State) (t v : Nat) : (s.setNotify t v).owner = s.owner := rfl
@[simp] theorem setNotify_active (s : State) (t v : Nat) : (s.setNotify t v).active = s.active := rfl
@[simp] theorem setNotify_halted (s : State) (t v : Nat) : (s.setNotify t v).halted = s.halted := rfl
@[simp] theorem setNotify_mem (s : State) (t v : Nat) : (s.setNotify t v).mem = s.mem := rfl
@[simp] theorem setNotify_hist (s : State) (t v : Nat) : (s.setNotify t v).hist = s.hist := rfl
@[simp] theorem setNotify_draws (s : State) (t v : Nat) : (s.setNotify t v).draws = s.draws := rfl
@[simp] theorem setNotify_curTask (s : State) (t v : Nat) : (s.setNotify t v).curTask = s.curTask := rfl
@[simp] theorem setNotify_dma (s : State) (t v : Nat) (n : Chan) : (s.setNotify t v).dma n = s.dma n := by
  cases n <;> rfl

/-! ### setProg -/

@[simp] theorem setProg_par (s : State) (t : Nat) (p : List Invocation) : (s.setProg t p).par = s.par := rfl
@[simp] theorem setProg_spi (s : State) (t : Nat) (p : List Invocation) : (s.setProg t p).spi = s.spi := rfl
@[simp] theorem setProg_cs (s : State) (t : Nat) (p : List Invocation) : (s.setProg t p).cs = s.cs := rfl
@[simp] theorem setProg_ce (s : State) (t : Nat) (p : List Invocation) : (s.setProg t p).ce = s.ce := rfl
@[simp] theorem setProg_irq (s : State) (t : Nat) (p : List Invocation) : (s.setProg t p).irq = s.irq := rfl
@[simp] theorem setProg_tmr (s : State) (t : Nat) (p : List Invocation) : (s.setProg t p).tmr = s.tmr := rfl
@[simp] theorem setProg_dma0 (s : State) (t : Nat) (p : List Invocation) : (s.setProg t p).dma0 = s.dma0 := rfl
@[simp] theorem setProg_dma1 (s : State) (t : Nat) (p : List Invocation) : (s.setProg t p).dma1 = s.dma1 := rfl
@[simp] theorem setProg_dmairq (s : State) (t : Nat) (p : List Invocation) : (s.setProg t p).dmairq = s.dmairq := rfl
@[simp] theorem setProg_owner (s : State) (t : Nat) (p : List Invocation) : (s.setProg t p).owner = s.owner := rfl
@[simp] theorem setProg_active (s : State) (t : Nat) (p : List Invocation) : (s.setProg t p).active = s.active := rfl
@[simp] theorem setProg_halted (s : State) (t : Nat) (p : List Invocation) : (s.setProg t p).halted = s.halted := rfl
@[simp] theorem setProg_mem (s : State) (t : Nat) (p : List Invocation) : (s.setProg t p).mem = s.mem := rfl
@[simp] theorem setProg_hist (s : State) (t : Nat) (p : List Invocation) : (s.setProg t p).hist = s.hist := rfl
@[simp] theorem setProg_draws (s : State) (t : Nat) (p : List Invocation) : (s.setProg t p).draws = s.draws := rfl
@[simp] theorem setProg_curTask (s : State) (t : Nat) (p : List Invocation) : (s.setProg t p).curTask = s.curTask := rfl
@[simp] theorem setProg_dma (s : State) (t : Nat) (p : List Invocation) (n : Chan) : (s.setProg t p).dma n = s.dma n := by
  cases n <;> rfl

/-! ### setDma -/

@[simp] theorem setDma_par (s : State) (n : Chan) (d : DmaChan) : (s.setDma n d).par = s.par := by
  cases n <;> rfl
@[simp] theorem setDma_spi (s : State) (n : Chan) (d : DmaChan) : (s.setDma n d).spi = s.spi := by
  cases n <;> rfl
@[simp] theorem setDma_cs (s : State) (n : Chan) (d : DmaChan) : (s.setDma n d).cs = s.cs := by
  cases n <;> rfl
@[simp] theorem setDma_ce (s : State) (n : Chan) (d : DmaChan) : (s.setDma n d).ce = s.ce := by
  cases n <;> rfl
@[simp] theorem setDma_irq (s : State) (n : Chan) (d : DmaChan) : (s.setDma n d).irq = s.irq := by
  cases n <;> rfl
@[simp] theorem setDma_tmr (s : State) (n : Chan) (d : DmaChan) : (s.setDma n d).tmr = s.tmr := by
  cases n <;> rfl
@[simp] theorem setDma_dmairq (s : State) (n : Chan) (d : DmaChan) : (s.setDma n d).dmairq = s.dmairq := by
  cases n <;> rfl
@[simp] theorem setDma_owner (s : State) (n : Chan) (d : DmaChan) : (s.setDma n d).owner = s.owner := by
  cases n <;> rfl
@[simp] theorem setDma_active (s : State) (n : Chan) (d : DmaChan) : (s.setDma n d).active = s.active := by
  cases n <;> rfl
@[simp] theorem setDma_tasks (s : State) (n : Chan) (d : DmaChan) : (s.setDma n d).tasks = s.tasks := by
  cases n <;> rfl
@[simp] theorem setDma_halted (s : State) (n : Chan) (d : DmaChan) : (s.setDma n d).halted = s.halted := by
  cases n <;> rfl
@[simp] theorem setDma_mem (s : State) (n : Chan) (d : DmaChan) : (s.setDma n d).mem = s.mem := by
  cases n <;> rfl
@[simp] theorem setDma_hist (s : State) (n : Chan) (d : DmaChan) : (s.setDma n d).hist = s.hist := by
  cases n <;> rfl
@[simp] theorem setDma_draws (s : State) (n : Chan) (d : DmaChan) : (s.setDma n d).draws = s.draws := by
  cases n <;> rfl
@[simp] theorem setDma_curTask (s : State) (n : Chan) (d : DmaChan) : (s.setDma n d).curTask = s.curTask := by
  cases n <;> rfl
@[simp] theorem setDma_taskAt (s : State) (n : Chan) (d : DmaChan) (t : Nat) :
    (s.setDma n d).taskAt t = s.taskAt t := by
  cases n <;> rfl
@[simp] theorem setDma_dma_same (s : State) (n : Chan) (d : DmaChan) : (s.setDma n d).dma n = d := by
  cases n <;> rfl
@[simp] theorem setDma_ch0_dma0 (s : State) (d : DmaChan) : (s.setDma .ch0 d).dma0 = d := rfl
@[simp] theorem setDma_ch0_dma1 (s : State) (d : DmaChan) : (s.setDma .ch0 d).dma1 = s.dma1 := rfl
@[simp] theorem setDma_ch1_dma0 (s : State) (d : DmaChan) : (s.setDma .ch1 d).dma0 = s.dma0 := rfl
@[simp] theorem setDma_ch1_dma1 (s : State) (d : DmaChan) : (s.setDma .ch1 d).dma1 = d := rfl
@[simp] theorem dma_ch0 (s : State) : s.dma .ch0 = s.dma0 := rfl
@[simp] theorem dma_ch1 (s : State) : s.dma .ch1 = s.dma1 := rfl

theorem setDma_dma_ne (s : State) {n k : Chan} (d : DmaChan) (h : k ≠ n) : (s.setDma n d).dma k = s.dma k := by
  cases n <;> cases k <;> simp_all

/-! ### The per-task fields -/

/-- The fields of a task after they were replaced. -/
theorem taskAt_setTask_same (s : State) {t : Nat} (k : TaskState) (h : t < s.tasks.length) :
    (s.setTask t k).taskAt t = k := by
  simp [State.taskAt, State.setTask, h]

/-- The fields of the other tasks. -/
theorem taskAt_setTask_ne (s : State) {t u : Nat} (k : TaskState) (h : u ≠ t) :
    (s.setTask t k).taskAt u = s.taskAt u := by
  simp [State.taskAt, State.setTask, List.getElem?_set_ne (Ne.symm h)]

/-- Replacing the fields of a number that is no task's changes nothing. -/
theorem setTask_of_length_le (s : State) {t : Nat} (k : TaskState) (h : s.tasks.length ≤ t) :
    s.setTask t k = s := by
  simp [State.setTask, List.set_eq_of_length_le h]

/-- A number that is no task's has the fields of an idle task. -/
theorem taskAt_of_length_le (s : State) {t : Nat} (h : s.tasks.length ≤ t) :
    s.taskAt t = TaskState.launch [] := by
  simp [State.taskAt, h]

/-- The number of tasks does not change. -/
@[simp] theorem setTask_length (s : State) (t : Nat) (k : TaskState) :
    (s.setTask t k).tasks.length = s.tasks.length := by
  simp

@[simp] theorem setCtx_length (s : State) (t : Nat) (c : Ctx) : (s.setCtx t c).tasks.length = s.tasks.length := by
  simp [State.setCtx]
@[simp] theorem setResult_length (s : State) (t : Nat) (code data : Byte) :
    (s.setResult t code data).tasks.length = s.tasks.length := by
  simp [State.setResult]
@[simp] theorem setNotify_length (s : State) (t v : Nat) : (s.setNotify t v).tasks.length = s.tasks.length := by
  simp [State.setNotify]
@[simp] theorem setProg_length (s : State) (t : Nat) (p : List Invocation) :
    (s.setProg t p).tasks.length = s.tasks.length := by
  simp [State.setProg]

/-- A context after it was replaced. -/
theorem ctx_setCtx_same (s : State) {t : Nat} (c : Ctx) (h : t < s.tasks.length) :
    ((s.setCtx t c).taskAt t).ctx = c := by
  simp [State.setCtx, taskAt_setTask_same, h]

/-- The other tasks' fields after a context was replaced. -/
theorem taskAt_setCtx_ne (s : State) {t u : Nat} (c : Ctx) (h : u ≠ t) :
    (s.setCtx t c).taskAt u = s.taskAt u :=
  taskAt_setTask_ne _ _ h

/-- A result does not touch a context. -/
@[simp] theorem ctx_setResult (s : State) (t u : Nat) (code data : Byte) :
    ((s.setResult t code data).taskAt u).ctx = (s.taskAt u).ctx := by
  by_cases h : u = t
  · subst h
    by_cases hl : u < s.tasks.length
    · simp [State.setResult, taskAt_setTask_same, hl]
    · rw [State.setResult, setTask_of_length_le _ _ (by omega)]
  · simp [State.setResult, taskAt_setTask_ne _ _ h]

/-- A notification does not touch a context. -/
@[simp] theorem ctx_setNotify (s : State) (t u v : Nat) :
    ((s.setNotify t v).taskAt u).ctx = (s.taskAt u).ctx := by
  by_cases h : u = t
  · subst h
    by_cases hl : u < s.tasks.length
    · simp [State.setNotify, taskAt_setTask_same, hl]
    · rw [State.setNotify, setTask_of_length_le _ _ (by omega)]
  · simp [State.setNotify, taskAt_setTask_ne _ _ h]

/-- A program's advance does not touch a context. -/
@[simp] theorem ctx_setProg (s : State) (t u : Nat) (p : List Invocation) :
    ((s.setProg t p).taskAt u).ctx = (s.taskAt u).ctx := by
  by_cases h : u = t
  · subst h
    by_cases hl : u < s.tasks.length
    · simp [State.setProg, taskAt_setTask_same, hl]
    · rw [State.setProg, setTask_of_length_le _ _ (by omega)]
  · simp [State.setProg, taskAt_setTask_ne _ _ h]

end Sys2Proof.Machine
end

