-- ==== Sys2Proof/Laws/Memory.lean ====
section
/-! SUPPORT. Data memory: a read after a write, and that every memory operation keeps the canonical form (20_memory.md R225). -/

namespace Sys2Proof.Machine

/-- Below its lowest address a canonical memory reads as the default byte. -/
theorem memGet_of_lt {m : Memory} {lo a : Nat} (hw : memWfFrom lo m) (ha : a < lo) : memGet m a = memDefault := by
  induction m generalizing lo with
  | nil => rfl
  | cons c r ih =>
    obtain ⟨k, x⟩ := c
    simp only [memWfFrom, Bool.and_eq_true, decide_eq_true_eq] at hw
    have hk : k ≠ a := by omega
    simp only [memGet, hk, if_false]
    exact ih hw.2 (by omega)

/-- A byte read after it was written. -/
theorem memGet_memPut_same {m : Memory} {lo : Nat} (a : Nat) (b : Byte) (hw : memWfFrom lo m) :
    memGet (memPut m a b) a = b := by
  induction m generalizing lo with
  | nil => by_cases hb : b = memDefault <;> simp [memPut, memGet, hb]
  | cons c r ih =>
    obtain ⟨k, x⟩ := c
    simp only [memWfFrom, Bool.and_eq_true, decide_eq_true_eq] at hw
    simp only [memPut]
    split
    · split
      · rename_i hak hb
        have hk : k ≠ a := by omega
        simp only [memGet, hk, if_false]
        rw [hb, memGet_of_lt hw.2 (by omega)]
      · simp [memGet]
    · split
      · split
        · rename_i hb
          rw [hb, memGet_of_lt hw.2 (by omega)]
        · simp [memGet]
      · rename_i h2
        have hk : k ≠ a := fun h => h2 h.symm
        simp only [memGet, hk, if_false]
        exact ih hw.2

/-- A byte elsewhere is not touched by a write. -/
theorem memGet_memPut_ne (m : Memory) {a c : Nat} (b : Byte) (h : c ≠ a) :
    memGet (memPut m a b) c = memGet m c := by
  have ha : a ≠ c := Ne.symm h
  induction m with
  | nil => by_cases hb : b = memDefault <;> simp [memPut, memGet, hb, ha]
  | cons d r ih =>
    obtain ⟨k, x⟩ := d
    simp only [memPut]
    split
    · split <;> simp [memGet, ha]
    · split
      · rename_i hak
        subst hak
        split <;> simp [memGet, ha]
      · by_cases hk : k = c <;> simp [memGet, hk, ih]

/-- A memory in canonical form from `lo` on is so from every lower address on. -/
theorem memWfFrom_mono {lo lo' : Nat} (h : lo' ≤ lo) {m : Memory} (hw : memWfFrom lo m) : memWfFrom lo' m := by
  cases m with
  | nil => rfl
  | cons c r =>
    obtain ⟨k, x⟩ := c
    simp only [memWfFrom, Bool.and_eq_true, decide_eq_true_eq] at hw ⊢
    exact ⟨⟨⟨by omega, hw.1.1.2⟩, hw.1.2⟩, hw.2⟩

/-- A write keeps the canonical form. -/
theorem memWfFrom_memPut {lo a : Nat} {m : Memory} (b : Byte) (hw : memWfFrom lo m) (hlo : lo ≤ a)
    (ha : a < 2 ^ 32) : memWfFrom lo (memPut m a b) := by
  induction m generalizing lo with
  | nil =>
    by_cases hb : b = memDefault <;> simp [memPut, memWfFrom, hb, hlo]
    omega
  | cons c r ih =>
    obtain ⟨k, x⟩ := c
    have hw' := hw
    simp only [memWfFrom, Bool.and_eq_true, decide_eq_true_eq] at hw'
    simp only [memPut]
    split
    · split
      · exact hw
      · rename_i hak hb
        simp only [memWfFrom, Bool.and_eq_true, decide_eq_true_eq]
        exact ⟨⟨⟨hlo, ha⟩, hb⟩, ⟨⟨⟨by omega, hw'.1.1.2⟩, hw'.1.2⟩, hw'.2⟩⟩
    · split
      · rename_i hak
        subst hak
        split
        · exact memWfFrom_mono (by omega) hw'.2
        · rename_i hb
          simp only [memWfFrom, Bool.and_eq_true, decide_eq_true_eq]
          exact ⟨⟨⟨hlo, ha⟩, hb⟩, hw'.2⟩
      · simp only [memWfFrom, Bool.and_eq_true, decide_eq_true_eq]
        exact ⟨hw'.1, ih hw'.2 (by omega)⟩

/-- Every write of a memory byte keeps the canonical form. -/
theorem memWf_memPut {m : Memory} (a : Word) (b : Byte) (hw : memWf m) : memWf (memPut m a.toNat b) :=
  memWfFrom_memPut b hw (Nat.zero_le _) a.isLt

/-- What a memory read answers: the byte, and the recorded access as its only effect. -/
theorem memRead_spec {a : Agent} {addr : Word} {s s' : State} {v : Byte} (h : memRead a addr s = some (v, s')) :
    admitted s.par addr = true ∧ v = memGet s.mem addr.toNat ∧ s' = s.emit (.memRd a addr v) := by
  simp only [memRead] at h
  split at h
  · simp only [Option.some.injEq, Prod.mk.injEq] at h
    obtain ⟨rfl, rfl⟩ := h
    exact ⟨‹_›, rfl, rfl⟩
  · cases h

/-- What a memory write answers: the byte stored and the access recorded, nothing else. -/
theorem memWrite_spec {a : Agent} {addr : Word} {s s' : State} {v : Byte} (h : memWrite a addr v s = some s') :
    admitted s.par addr = true ∧ s' = (s.setMem (memPut s.mem addr.toNat v)).emit (.memWr a addr v) := by
  simp only [memWrite] at h
  split at h
  · simp only [Option.some.injEq] at h
    exact ⟨‹_›, h.symm⟩
  · cases h

/-- A task's memory read: the admitted byte, or MemoryFault with nothing changed. -/
theorem taskMemRead_cases (t : Nat) (addr : Word) (s : State) :
    (admitted s.par addr = true ∧ taskMemRead t addr s =
        .ok (memGet s.mem addr.toNat) (s.emit (.memRd (.task t) addr (memGet s.mem addr.toNat)))) ∨
      (admitted s.par addr = false ∧ taskMemRead t addr s = .raised (.memoryFault addr) s) := by
  by_cases h : admitted s.par addr = true
  · exact .inl ⟨h, by simp [taskMemRead, memRead, h]⟩
  · exact .inr ⟨by simpa using h, by simp [taskMemRead, memRead, h]⟩

/-- A task's memory write: the admitted byte stored, or MemoryFault with nothing changed. -/
theorem taskMemWrite_cases (t : Nat) (addr : Word) (v : Byte) (s : State) :
    (admitted s.par addr = true ∧ taskMemWrite t addr v s =
        .ok () ((s.setMem (memPut s.mem addr.toNat v)).emit (.memWr (.task t) addr v))) ∨
      (admitted s.par addr = false ∧ taskMemWrite t addr v s = .raised (.memoryFault addr) s) := by
  by_cases h : admitted s.par addr = true
  · exact .inl ⟨h, by simp [taskMemWrite, memWrite, h]⟩
  · exact .inr ⟨by simpa using h, by simp [taskMemWrite, memWrite, h]⟩

end Sys2Proof.Machine
end

