-- ==== Sys2Proof/Laws/Closed.lean ====
section
/-! SUPPORT. What one step can do, said once: every step is a sequence of the named operations, so a relation between states that each of them keeps, and that is reflexive and transitive, holds across every instruction and every step. An invariant is carried by taking the relation "the invariant still holds". -/

namespace Sys2Proof.Machine

/-- The events that record the sequencer's own progress. -/
def Event.isProgress : Event → Bool
  | .issue _ _ _ _ => true
  | .result _ _ _ => true
  | .timeout _ => true
  | .halt _ _ _ => true
  | .radioIrq => true
  | _ => false

/-- A relation that every named operation of a step keeps. -/
structure Closed (R : State → State → Prop) : Prop where
  refl : ∀ s, R s s
  trans : ∀ {a b c}, R a b → R b c → R a c
  progress : ∀ s e, e.isProgress = true → R s (s.emit e)
  task : ∀ s t k, R s (s.setTask t k)
  active : ∀ s a, R s (s.setActive a)
  owner : ∀ s o, R s (s.setOwner o)
  halted : ∀ s h, R s (s.setHalted h)
  draws : ∀ s d, R s (s.setDraws d)
  curTask : ∀ s t, R s (s.setCurTask t)
  regRead : ∀ {a r n s v s'}, regReadBy a r n s = some (v, s') → R s s'
  regWrite : ∀ {a r n v s s'}, regWriteOk r n v s = true → regWriteBy a r n v s = some s' → R s s'
  memRead : ∀ {a addr s v s'}, memRead a addr s = some (v, s') → R s s'
  memWrite : ∀ {a addr v s s'}, memWrite a addr v s = some s' → R s s'
  start : ∀ s, startEnabled s = true → R s (spiStart s)
  finish : ∀ b s, finishEnabled s = true → R s (exchange b s)
  transfer : ∀ n s, dmaEnabled n s = true → R s (dmaTransfer n s)
  tick : ∀ s, s.tmr.running = true → R s (tick s)
  ovfHandler : ∀ s, R s (ovfHandlerStep s)
  pin : ∀ s, R s (pinStep s)

variable {R : State → State → Prop}

namespace Closed

theorem setCtx (h : Closed R) (t : Nat) (c : Ctx) (s : State) : R s (s.setCtx t c) := h.task _ _ _

theorem setResult (h : Closed R) (t : Nat) (code data : Byte) (s : State) : R s (s.setResult t code data) :=
  h.task _ _ _

theorem setNotify (h : Closed R) (t v : Nat) (s : State) : R s (s.setNotify t v) := h.task _ _ _

theorem setProg (h : Closed R) (t : Nat) (p : List Invocation) (s : State) : R s (s.setProg t p) := h.task _ _ _

theorem haltWith (h : Closed R) (t : Nat) (p : Option Place) (e : Abnormal) (s : State) :
    R s (haltWith t p e s) :=
  h.trans (h.halted _ _) (h.progress _ _ rfl)

theorem complete (h : Closed R) (t : Nat) (code data : Byte) (s : State) : R s (complete t code data s) :=
  h.trans (h.trans (h.trans (h.setResult _ _ _ _) (h.setCtx _ _ _)) (h.active _ _)) (h.progress _ _ rfl)

theorem reportAtIssue (h : Closed R) (t : Nat) (code : Byte) (s : State) : R s (reportAtIssue t code s) :=
  h.trans (h.setResult _ _ _ _) (h.progress _ _ rfl)

theorem raise (h : Closed R) (t : Nat) (p : Option Place) (e : Abnormal) (s : State) : R s (raise t p e s) := by
  unfold Machine.raise
  split
  · exact h.haltWith _ _ _ _
  · split
    · exact h.complete _ _ _ _
    · exact h.reportAtIssue _ _ _

theorem startPhases (h : Closed R) (t : Nat) (ps : List Phase) (top : Option Invocation) (code data : Byte)
    (s : State) : R s (startPhases t ps top code data s) := by
  fun_induction Machine.startPhases t ps top code data s with
  | case1 => exact h.complete _ _ _ _
  | case2 => exact h.setCtx _ _ _
  | case3 _ _ _ _ _ ih => exact ih
  | case4 => exact h.setCtx _ _ _

theorem returnOp (h : Closed R) (t : Nat) (code data : Byte) (s : State) : R s (returnOp t code data s) :=
  h.startPhases _ _ _ _ _ _

theorem gotoStep (h : Closed R) (t : Nat) (l : Label) (c : Locals) (s : State) : R s (gotoStep t l c s) :=
  h.setCtx _ _ _

theorem stepRead (h : Closed R) {t : Nat} {l : Label} {r : Reg} {n : Nat} {k : Word → State → State} {s : State}
    (hk : ∀ v s, R s (k v s)) : R s (stepRead t l r n k s) := by
  unfold Machine.stepRead taskRead
  by_cases hs : regSizeOk r n = true
  · simp only [hs, if_true]
    cases hr : regReadBy (.task t) r n s with
    | none => exact h.raise _ _ _ _
    | some p => exact h.trans (h.regRead hr) (hk _ _)
  · simp only [hs]
    exact h.raise _ _ _ _

theorem stepWrite (h : Closed R) {t : Nat} {l : Label} {r : Reg} {n : Nat} {v : Word} {k : State → State}
    {s : State} (hk : ∀ s, R s (k s)) : R s (stepWrite t l r n v k s) := by
  unfold Machine.stepWrite taskWrite
  by_cases hs : regWriteOk r n v s = true
  · simp only [hs, if_true]
    cases hr : regWriteBy (.task t) r n v s with
    | none => exact h.raise _ _ _ _
    | some s' => exact h.trans (h.regWrite hs hr) (hk _)
  · simp only [hs]
    exact h.raise _ _ _ _

theorem stepMemRead (h : Closed R) {t : Nat} {l : Label} {a : Word} {k : Byte → State → State} {s : State}
    (hk : ∀ b s, R s (k b s)) : R s (stepMemRead t l a k s) := by
  unfold Machine.stepMemRead taskMemRead
  cases hr : Machine.memRead (.task t) a s with
  | none => exact h.raise _ _ _ _
  | some p => exact h.trans (h.memRead hr) (hk _ _)

theorem stepMemWrite (h : Closed R) {t : Nat} {l : Label} {a : Word} {b : Byte} {k : State → State} {s : State}
    (hk : ∀ s, R s (k s)) : R s (stepMemWrite t l a b k s) := by
  unfold Machine.stepMemWrite taskMemWrite
  cases hr : Machine.memWrite (.task t) a b s with
  | none => exact h.raise _ _ _ _
  | some s' => exact h.trans (h.memWrite hr) (hk _)

theorem stepLength (h : Closed R) {t : Nat} {l : Label} {n : Nat} {k : Nat → State → State} {s : State}
    (hk : ∀ x s, R s (k x s)) : R s (stepLength t l n k s) := by
  unfold Machine.stepLength
  split
  · exact h.raise _ _ _ _
  · split
    · exact h.raise _ _ _ _
    · exact hk _ _

/-! ### The steps of the operations -/

theorem stepCopy (h : Closed R) (t i : Nat) (c : Locals) (s : State) : R s (stepCopy t i c s) := by
  have hst : ∀ b s, R s (Machine.stepMemWrite t (.copy i) (addrAdd c.dst i) b (fun s =>
      if i + 1 < c.n then Machine.gotoStep t (.copy (i + 1)) c s
      else Machine.returnOp t codeOk 0x00#8 s) s) := by
    intro b s
    refine h.stepMemWrite fun s => ?_
    split
    · exact h.gotoStep _ _ _ _
    · exact h.returnOp _ _ _ _
  simp only [Machine.stepCopy]
  split
  · exact hst _ _
  · exact h.stepMemRead hst

theorem stepRdb (h : Closed R) (t : Nat) (l : RdbLabel) (c : Locals) (s : State) : R s (stepRdb t l c s) := by
  cases l <;> simp only [Machine.stepRdb]
  · exact h.stepRead fun _ _ => h.gotoStep _ _ _ _
  · exact h.stepRead fun _ _ => h.returnOp _ _ _ _

theorem stepTxb (h : Closed R) (t : Nat) (l : TxbLabel) (c : Locals) (s : State) : R s (stepTxb t l c s) := by
  cases l <;> simp only [Machine.stepTxb]
  case b6 => exact h.returnOp _ _ _ _
  all_goals first
    | exact h.stepRead fun _ _ => h.gotoStep _ _ _ _
    | exact h.stepWrite fun _ => h.gotoStep _ _ _ _

theorem stepTxp (h : Closed R) (t : Nat) (l : TxpLabel) (c : Locals) (s : State) : R s (stepTxp t l c s) := by
  cases l <;> simp only [Machine.stepTxp]
  case p0 => exact h.stepLength fun _ _ => h.gotoStep _ _ _ _
  case p6 => exact h.stepMemRead fun _ _ => h.stepWrite fun _ => h.gotoStep _ _ _ _
  case p8 => exact h.stepRead fun _ _ => h.stepMemWrite fun _ => h.gotoStep _ _ _ _
  case p12 => exact h.returnOp _ _ _ _
  all_goals first
    | exact h.stepRead fun _ _ => h.gotoStep _ _ _ _
    | exact h.stepWrite fun _ => h.gotoStep _ _ _ _

theorem stepTxd (h : Closed R) (t : Nat) (l : TxdLabel) (c : Locals) (s : State) : R s (stepTxd t l c s) := by
  cases l <;> simp only [Machine.stepTxd]
  case d0 => exact h.stepLength fun _ _ => h.gotoStep _ _ _ _
  case d1 =>
    split
    · exact h.raise _ _ _ _
    · exact h.trans (h.owner _ _) (h.gotoStep _ _ _ _)
  case d14 => exact h.stepMemRead fun _ _ => h.stepWrite fun _ => h.gotoStep _ _ _ _
  case d17 => exact h.trans (h.setNotify _ _ _) (h.gotoStep _ _ _ _)
  case d23 =>
    split
    · exact h.raise _ _ _ _
    · exact h.returnOp _ _ _ _
  case t3 =>
    exact h.stepWrite fun _ => h.trans (h.trans (h.owner _ _) (h.setNotify _ _ _)) (h.gotoStep _ _ _ _)
  case t5 =>
    split
    · exact h.stepRead fun _ _ => h.gotoStep _ _ _ _
    · exact h.gotoStep _ _ _ _
  case t10 => exact h.raise _ _ _ _
  all_goals first
    | exact h.stepRead fun _ _ => h.gotoStep _ _ _ _
    | exact h.stepWrite fun _ => h.gotoStep _ _ _ _

theorem stepScs (h : Closed R) (t : Nat) (c : Locals) (s : State) : R s (stepScs t c s) := by
  unfold Machine.stepScs
  exact h.stepWrite fun _ => h.returnOp _ _ _ _

theorem stepPulse (h : Closed R) (t : Nat) (l : PulseLabel) (c : Locals) (s : State) : R s (stepPulse t l c s) := by
  cases l <;> simp only [Machine.stepPulse]
  case tp0 =>
    split
    · exact h.raise _ _ _ _
    · exact h.stepWrite fun _ => h.gotoStep _ _ _ _
  case tp1 => exact h.stepWrite fun _ => h.gotoStep _ _ _ _
  case tp2 => exact h.stepRead fun _ _ => h.gotoStep _ _ _ _
  case tp3 => exact h.stepWrite fun _ => h.returnOp _ _ _ _

theorem stepInitIO (h : Closed R) (t : Nat) (l : InitLabel) (c : Locals) (s : State) :
    R s (stepInitIO t l c s) := by
  cases l <;> simp only [Machine.stepInitIO]
  case i2 => exact h.stepWrite fun _ => h.returnOp _ _ _ _
  all_goals exact h.stepWrite fun _ => h.gotoStep _ _ _ _

theorem operationStep (h : Closed R) (t : Nat) (c : Cur) (s : State) : R s (operationStep t c s) := by
  unfold Machine.operationStep
  split
  · exact h.stepRdb _ _ _ _
  · exact h.stepTxb _ _ _ _
  · exact h.stepTxp _ _ _ _
  · exact h.stepTxd _ _ _ _
  · exact h.stepScs _ _ _
  · exact h.stepPulse _ _ _ _
  · exact h.stepInitIO _ _ _ _
  · exact h.stepCopy _ _ _ _

/-! ### The instructions -/

theorem issue (h : Closed R) {isTxd : Bool} {d x y : Word} {checks : List (Bool × Abnormal)} {ps : List Phase}
    {s s' : State} (hi : issue isTxd d x y checks ps s = .next s') : R s s' := by
  unfold Machine.issue at hi
  split at hi
  · cases hi
  · have h1 : R s (s.emit (.issue s.curTask d x y)) := h.progress _ _ rfl
    split at hi
    · cases hi; exact h.trans h1 (h.raise _ _ _ _)
    · split at hi
      · cases hi; exact h.trans h1 (h.raise _ _ _ _)
      · cases hi; exact h.trans h1 (h.trans (h.active _ _) (h.startPhases _ _ _ _ _ _))

theorem directRead (h : Closed R) {r : Reg} {n : Nat} {s s' : State} (hi : directRead r n s = .next s') :
    R s s' := by
  unfold Machine.directRead taskRead at hi
  split at hi
  · cases hi
  · split at hi
    · cases hi; exact h.raise _ _ _ _
    · by_cases hs : regSizeOk r n = true
      · simp only [hs, if_true] at hi
        cases hr : regReadBy (.task s.curTask) r n s with
        | none => rw [hr] at hi; cases hi; exact h.raise _ _ _ _
        | some p => rw [hr] at hi; cases hi; exact h.regRead hr
      · simp only [hs] at hi
        cases hi; exact h.raise _ _ _ _

theorem directWrite (h : Closed R) {r : Reg} {n : Nat} {v : Word} {s s' : State}
    (hi : directWrite r n v s = .next s') : R s s' := by
  unfold Machine.directWrite taskWrite at hi
  split at hi
  · cases hi
  · split at hi
    · cases hi; exact h.raise _ _ _ _
    · by_cases hs : regWriteOk r n v s = true
      · simp only [hs, if_true] at hi
        cases hr : regWriteBy (.task s.curTask) r n v s with
        | none => rw [hr] at hi; cases hi; exact h.raise _ _ _ _
        | some p => rw [hr] at hi; cases hi; exact h.regWrite hs hr
      · simp only [hs] at hi
        cases hi; exact h.raise _ _ _ _

theorem emitCommandByte (h : Closed R) {b : Byte} {s s' : State} (hi : emitCommandByte b s = .next s') :
    R s s' := by
  unfold Machine.emitCommandByte at hi
  split at hi
  · cases hi
  · split at hi
    · cases hi; exact h.finish _ _ ‹_›
    · cases hi; exact h.refl _

/-- Every instruction keeps the relation. -/
theorem exec (h : Closed R) {i : Instr} {s s' : State} (hi : exec i s = .next s') : R s s' := by
  cases i
  case rdb => unfold Machine.exec at hi; unfold Machine.execRdb at hi; exact h.issue hi
  case txb => unfold Machine.exec at hi; unfold Machine.execTxb at hi; exact h.issue hi
  case txp => unfold Machine.exec at hi; unfold Machine.execTxp at hi; exact h.issue hi
  case txd => unfold Machine.exec at hi; unfold Machine.execTxd at hi; exact h.issue hi
  case scs => unfold Machine.exec at hi; unfold Machine.execScs at hi; exact h.issue hi
  case pulse => unfold Machine.exec at hi; unfold Machine.execPulse at hi; exact h.issue hi
  case wreg => unfold Machine.exec at hi; unfold Machine.execWreg at hi; exact h.issue hi
  case waddr => unfold Machine.exec at hi; unfold Machine.execWaddr at hi; exact h.issue hi
  case cmd => unfold Machine.exec at hi; unfold Machine.execCmd at hi; exact h.issue hi
  case rstat => unfold Machine.exec at hi; unfold Machine.execRstat at hi; exact h.issue hi
  case send => unfold Machine.exec at hi; unfold Machine.execSend at hi; exact h.issue hi
  case init => unfold Machine.exec at hi; unfold Machine.execInit at hi; exact h.issue hi
  all_goals first
    | exact h.directRead hi
    | exact h.directWrite hi
    | exact h.emitCommandByte hi

/-! ### The agents -/

theorem handlerWrite (h : Closed R) {a : Agent} {r : Reg} {v : Word} {s : State}
    (ho : regWriteOk r 4 v s = true) : R s (handlerWrite a r v s) := by
  unfold Machine.handlerWrite
  cases hr : regWriteBy a r 4 v s with
  | none => exact h.refl _
  | some s' => exact h.regWrite ho hr

theorem taskStep (h : Closed R) {t : Nat} {s s' : State} (hi : taskStep t s = .next s') : R s s' := by
  unfold Machine.taskStep at hi
  split at hi
  · cases hi; exact h.trans (h.curTask _ _) (h.operationStep _ _ _)
  · split at hi
    · rename_i inv rest _
      have h1 : R s ((s.setCurTask t).setProg t rest) := h.trans (h.curTask _ _) (h.setProg _ _ _)
      unfold invoke at hi
      split at hi
      · exact h.trans h1 (h.exec hi)
      · cases hi
        refine h.trans h1 ?_
        unfold rejectInvocation
        split
        · exact h.trans (h.progress _ _ rfl) (h.raise _ _ _ _)
        · unfold directUnassigned
          split <;> exact h.raise _ _ _ _
    · cases hi; exact h.refl _

theorem shiftStep (h : Closed R) {s s' : State} (he : shiftEnabled s = true)
    (hi : shiftStep s = .next s') : R s s' := by
  unfold Machine.shiftStep at hi
  by_cases hs : startEnabled s = true
  · simp only [hs, if_true] at hi
    cases hi; exact h.start _ hs
  · have hf : finishEnabled s = true := by
      simpa [shiftEnabled, hs] using he
    rw [if_neg hs] at hi
    split at hi
    · exact h.exec hi
    · cases hi; exact h.finish _ _ hf

theorem dmaHandlerStep (h : Closed R) (s : State) : R s (dmaHandlerStep s) := by
  unfold Machine.dmaHandlerStep
  split
  · exact h.trans (h.trans (h.setNotify _ _ _) (h.owner _ _)) (h.handlerWrite rfl)
  · exact h.handlerWrite rfl

theorem irqHandlerStep (h : Closed R) (s : State) : R s (irqHandlerStep s) :=
  h.trans (h.handlerWrite rfl) (h.progress _ _ rfl)

theorem timeoutStep (h : Closed R) (t : Nat) (s : State) : R s (timeoutStep t s) := by
  unfold Machine.timeoutStep
  have h1 : R s (s.emit (.timeout t)) := h.progress _ _ rfl
  cases s.par.errorPolicy
  · exact h.trans h1 (h.raise _ _ _ _)
  · cases (s.taskAt t).ctx.cur
    · exact h1
    · exact h.trans h1 (h.gotoStep _ _ _ _)

theorem turn (h : Closed R) {a : Agent} {s s' : State} (hi : turn a s = .next s') : R s s' := by
  unfold Machine.turn at hi
  split at hi
  · rename_i he
    cases a with
    | task t => exact h.taskStep hi
    | shift => exact h.shiftStep he hi
    | dma n => cases hi; exact h.transfer _ _ he
    | timer => cases hi; exact h.tick _ he
    | dmaHandler => cases hi; exact h.dmaHandlerStep _
    | irqHandler => cases hi; exact h.irqHandlerStep _
    | ovfHandler => cases hi; exact h.ovfHandler _
    | device => cases hi; exact h.pin _
    | timeout t => cases hi; exact h.timeoutStep _ _
  · cases hi; exact h.refl _

theorem drawAgent (h : Closed R) (s : State) : R s (drawAgent s).2 := by
  unfold Machine.drawAgent
  split <;> exact h.draws _ _

/-- Every step keeps the relation. -/
theorem step (h : Closed R) {s s' : State} (hi : step s = .next s') : R s s' := by
  unfold Machine.step oneStep at hi
  split at hi
  · split at hi
    · cases hi
    · exact h.trans (h.drawAgent _) (h.turn hi)
  · cases hi

end Closed

end Sys2Proof.Machine
end

