-- ==== Sys2Proof/Laws/Encoding.lean ====
section
/-! SUPPORT. The fields of the encodings: what each field of an assembled word reads as, and that a word is assembled from its fields (30_encoding.md R301, R310, R320). -/

namespace Sys2Proof

/-- Bit `i` of a descriptor is a bit of one of its fields. -/
theorem mkDesc_getLsbD (o a b n : Byte) (i : Nat) :
    (mkDesc o a b n).getLsbD i =
      if i < 8 then n.getLsbD i else if i < 16 then b.getLsbD (i - 8)
      else if i < 24 then a.getLsbD (i - 16) else o.getLsbD (i - 24) := by
  show BitVec.getLsbD (w := 8 + 8 + 8 + 8) (o ++ a ++ b ++ n) i = _
  simp only [BitVec.getLsbD_append, Nat.sub_sub]
  split
  · rfl
  · by_cases h2 : i < 16
    · rw [if_pos h2, if_pos (show i - 8 < 8 by omega)]
    · rw [if_neg h2, if_neg (show ¬ i - 8 < 8 by omega)]
      by_cases h3 : i < 24
      · rw [if_pos h3, if_pos (show i - (8 + 8) < 8 by omega)]
      · rw [if_neg h3, if_neg (show ¬ i - (8 + 8) < 8 by omega)]

@[simp] theorem descOpc_mkDesc (o a b n : Byte) : descOpc (mkDesc o a b n) = o := by
  apply BitVec.eq_of_getLsbD_eq
  intro i hi
  simp only [descOpc, BitVec.getLsbD_extractLsb', mkDesc_getLsbD, hi, decide_true, Bool.true_and]
  rw [if_neg (by omega), if_neg (by omega), if_neg (by omega), Nat.add_sub_cancel_left]

@[simp] theorem descA_mkDesc (o a b n : Byte) : descA (mkDesc o a b n) = a := by
  apply BitVec.eq_of_getLsbD_eq
  intro i hi
  simp only [descA, BitVec.getLsbD_extractLsb', mkDesc_getLsbD, hi, decide_true, Bool.true_and]
  rw [if_neg (by omega), if_neg (by omega), if_pos (by omega), Nat.add_sub_cancel_left]

@[simp] theorem descB_mkDesc (o a b n : Byte) : descB (mkDesc o a b n) = b := by
  apply BitVec.eq_of_getLsbD_eq
  intro i hi
  simp only [descB, BitVec.getLsbD_extractLsb', mkDesc_getLsbD, hi, decide_true, Bool.true_and]
  rw [if_neg (by omega), if_pos (by omega), Nat.add_sub_cancel_left]

@[simp] theorem descLen_mkDesc (o a b n : Byte) : descLen (mkDesc o a b n) = n := by
  apply BitVec.eq_of_getLsbD_eq
  intro i hi
  simp only [descLen, BitVec.getLsbD_extractLsb', mkDesc_getLsbD, hi, decide_true, Bool.true_and,
    Nat.zero_add, if_true]

/-- A descriptor is assembled from its fields. -/
theorem mkDesc_fields (d : Word) : mkDesc (descOpc d) (descA d) (descB d) (descLen d) = d := by
  apply BitVec.eq_of_getLsbD_eq
  intro i hi
  simp only [mkDesc_getLsbD, descOpc, descA, descB, descLen, BitVec.getLsbD_extractLsb']
  split
  · simp [*]
  · split
    · rw [Nat.add_sub_cancel' (by omega)]; simp; omega
    · split
      · rw [Nat.add_sub_cancel' (by omega)]; simp; omega
      · rw [Nat.add_sub_cancel' (by omega)]; simp; omega

/-- An access code is assembled from its fields. -/
theorem accessCode_fields : ∀ c : AccessCode, accessCode (codeDir c) (codeOffset c) = c := by decide

@[simp] theorem codeOffset_accessCode (d : Dir) : ∀ off : Byte, codeOffset (accessCode d off) = off := by
  cases d <;> decide

@[simp] theorem codeDir_accessCode (d : Dir) : ∀ off : Byte, codeDir (accessCode d off) = d := by
  cases d <;> decide

/-- The register at a register's offset is that register. -/
@[simp] theorem regAt_regOffset (r : Reg) : regAt (regOffset r) = some r := by
  cases r <;> first | rfl | (rename_i n; cases n <;> rfl)

/-- An offset with a register is that register's offset. -/
theorem regAt_some : ∀ off : Byte, ∀ r, regAt off = some r → regOffset r = off := by
  intro off r h
  simp only [regAt] at h
  split at h <;> cases h <;> (rename_i h; exact BitVec.eq_of_toNat_eq h.symm)

end Sys2Proof
end

