-- ==== Sys2Proof/Laws/Regs.lean ====
section
/-! SUPPORT. Register accesses: what reading and writing a register can do to the state, said once for every register (20_memory.md R210-R215). -/

namespace Sys2Proof.Machine

/-- The fields no register access and no register effect touches. -/
structure SameOutside (s s' : State) : Prop where
  par : s'.par = s.par
  owner : s'.owner = s.owner
  active : s'.active = s.active
  tasks : s'.tasks = s.tasks
  halted : s'.halted = s.halted
  mem : s'.mem = s.mem
  draws : s'.draws = s.draws
  curTask : s'.curTask = s.curTask

theorem SameOutside.refl (s : State) : SameOutside s s := ⟨rfl, rfl, rfl, rfl, rfl, rfl, rfl, rfl⟩

theorem SameOutside.trans {a b c : State} (h : SameOutside a b) (k : SameOutside b c) : SameOutside a c :=
  ⟨k.par.trans h.par, k.owner.trans h.owner, k.active.trans h.active, k.tasks.trans h.tasks,
    k.halted.trans h.halted, k.mem.trans h.mem, k.draws.trans h.draws, k.curTask.trans h.curTask⟩

theorem SameOutside.emit (s : State) (e : Event) : SameOutside s (s.emit e) :=
  ⟨rfl, rfl, rfl, rfl, rfl, rfl, rfl, rfl⟩

theorem SameOutside.setSpi (s : State) (p : SpiState) : SameOutside s (s.setSpi p) :=
  ⟨rfl, rfl, rfl, rfl, rfl, rfl, rfl, rfl⟩

theorem SameOutside.setCs (s : State) (c : CsState) : SameOutside s (s.setCs c) :=
  ⟨rfl, rfl, rfl, rfl, rfl, rfl, rfl, rfl⟩

theorem SameOutside.setCe (s : State) (c : CeState) : SameOutside s (s.setCe c) :=
  ⟨rfl, rfl, rfl, rfl, rfl, rfl, rfl, rfl⟩

theorem SameOutside.setIrq (s : State) (q : IrqState) : SameOutside s (s.setIrq q) :=
  ⟨rfl, rfl, rfl, rfl, rfl, rfl, rfl, rfl⟩

theorem SameOutside.setTmr (s : State) (m : TimerState) : SameOutside s (s.setTmr m) :=
  ⟨rfl, rfl, rfl, rfl, rfl, rfl, rfl, rfl⟩

theorem SameOutside.setDma (s : State) (n : Chan) (d : DmaChan) : SameOutside s (s.setDma n d) := by
  cases n <;> exact ⟨rfl, rfl, rfl, rfl, rfl, rfl, rfl, rfl⟩

theorem SameOutside.setDmairq (s : State) (b : Bool) : SameOutside s (s.setDmairq b) :=
  ⟨rfl, rfl, rfl, rfl, rfl, rfl, rfl, rfl⟩

/-- A read changes nothing, but that a read of SPI_DR clears RXNE (20_memory.md R215). -/
theorem readReg_cases {r : Reg} {s s' : State} {v : Word} (h : readReg r s = some (v, s')) :
    s' = s ∨ (r = .spiDr ∧ s' = s.setSpi { s.spi with rxne := false }) := by
  cases r
  case spiDr =>
    simp only [readReg, readSpiDr] at h
    split at h
    · simp only [Option.some.injEq, Prod.mk.injEq] at h
      exact .inr ⟨rfl, h.2.symm⟩
    · cases h
  all_goals
    simp only [readReg, Option.some.injEq, Prod.mk.injEq] at h
    exact .inl h.2.symm

theorem readReg_same {r : Reg} {s s' : State} {v : Word} (h : readReg r s = some (v, s')) : SameOutside s s' := by
  rcases readReg_cases h with rfl | ⟨-, rfl⟩
  · exact .refl _
  · exact .setSpi _ _

/-- Every register but SPI_DR has a value to read. -/
theorem readReg_total {r : Reg} (hr : r ≠ .spiDr) (s : State) : ∃ v, readReg r s = some (v, s) := by
  cases r
  case spiDr => exact absurd rfl hr
  all_goals exact ⟨_, rfl⟩

theorem dmaComplete_same (n : Chan) (s : State) : SameOutside s (dmaComplete n s) :=
  (SameOutside.setDma s n _).trans (.setDmairq _ _)

theorem writeDmaCtrl_same (n : Chan) (v : Word) (s : State) : SameOutside s (writeDmaCtrl n v s) := by
  simp only [writeDmaCtrl]
  split
  · exact .setDma _ _ _
  · split
    · split
      · exact (SameOutside.setDma s n _).trans (dmaComplete_same _ _)
      · exact .setDma _ _ _
    · exact .setDma _ _ _

/-- A write touches the block's registers and lines only. -/
theorem writeReg_same {r : Reg} {v : Word} {s s' : State} (h : writeReg r v s = some s') : SameOutside s s' := by
  have hline : ∀ {c : Bool} {a b : State}, SameOutside s a → SameOutside s b → SameOutside s (if c then a else b) := by
    intro c a b ha hb; cases c
    · exact hb
    · exact ha
  cases r
  case spiDr =>
    simp only [writeReg, writeSpiDr] at h
    split at h
    · cases h; exact .setSpi _ _
    · cases h
  all_goals
    simp only [writeReg, Option.some.injEq] at h
    subst h
    first
      | exact .refl _
      | exact .setSpi _ _
      | exact .setCe _ _
      | exact .setIrq _ _
      | exact .setTmr _ _
      | exact .setDma _ _ _
      | exact .setDmairq _ _
      | exact writeDmaCtrl_same _ _ _
      | exact hline ((SameOutside.setCs s _).trans (.emit _ _)) (.refl _)
      | exact hline ((SameOutside.setCe s _).trans (.emit _ _)) (.refl _)

/-- An admitted read: the register's effect, then the recorded access. -/
theorem regReadBy_spec {a : Agent} {r : Reg} {n : Nat} {s s' : State} {v : Word}
    (h : regReadBy a r n s = some (v, s')) :
    ∃ s1, readReg r s = some (v, s1) ∧ s' = s1.emit (.regAcc a (regOffset r) n .read v) := by
  simp only [regReadBy] at h
  split at h
  · simp only [Option.some.injEq, Prod.mk.injEq] at h
    obtain ⟨rfl, rfl⟩ := h
    exact ⟨_, ‹_›, rfl⟩
  · cases h

theorem regReadBy_same {a : Agent} {r : Reg} {n : Nat} {s s' : State} {v : Word}
    (h : regReadBy a r n s = some (v, s')) : SameOutside s s' := by
  obtain ⟨s1, h1, rfl⟩ := regReadBy_spec h
  exact (readReg_same h1).trans (.emit _ _)

theorem regWriteBy_same {a : Agent} {r : Reg} {n : Nat} {v : Word} {s s' : State}
    (h : regWriteBy a r n v s = some s') : SameOutside s s' :=
  (SameOutside.emit s _).trans (writeReg_same h)

/-- A task's read: the admitted read, or a raise that changed nothing. -/
theorem taskRead_cases (t : Nat) (r : Reg) (n : Nat) (s : State) :
    (∃ v s', taskRead t r n s = .ok v s' ∧ regReadBy (.task t) r n s = some (v, s')) ∨
      ∃ e, taskRead t r n s = .raised e s ∧ isFault e = true := by
  unfold taskRead
  by_cases hs : regSizeOk r n = true
  · rw [if_pos hs]
    cases hr : regReadBy (.task t) r n s with
    | none => exact .inr ⟨_, rfl, rfl⟩
    | some p => exact .inl ⟨p.1, p.2, rfl, rfl⟩
  · rw [if_neg hs]
    exact .inr ⟨_, rfl, rfl⟩

/-- A task's write: the admitted write, or a raise that changed nothing. -/
theorem taskWrite_cases (t : Nat) (r : Reg) (n : Nat) (v : Word) (s : State) :
    (∃ s', taskWrite t r n v s = .ok () s' ∧ regWriteOk r n v s = true ∧
        regWriteBy (.task t) r n v s = some s') ∨
      ∃ e, taskWrite t r n v s = .raised e s ∧ isFault e = true := by
  unfold taskWrite
  by_cases hs : regWriteOk r n v s = true
  · rw [if_pos hs]
    cases hr : regWriteBy (.task t) r n v s with
    | none => exact .inr ⟨_, rfl, rfl⟩
    | some p => exact .inl ⟨p, rfl, hs, rfl⟩
  · rw [if_neg hs]
    exact .inr ⟨_, rfl, rfl⟩

/-- A write other than of SPI_DR that passes the checks is admitted. -/
theorem regWriteBy_total {r : Reg} (hr : r ≠ .spiDr) (a : Agent) (n : Nat) (v : Word) (s : State) :
    ∃ s', regWriteBy a r n v s = some s' := by
  cases r
  case spiDr => exact absurd rfl hr
  all_goals exact ⟨_, rfl⟩

/-- A handler's write touches the block's registers and lines only. -/
theorem handlerWrite_same (a : Agent) (r : Reg) (v : Word) (s : State) : SameOutside s (handlerWrite a r v s) := by
  unfold handlerWrite
  cases hr : regWriteBy a r 4 v s with
  | none => exact .refl _
  | some s' => exact regWriteBy_same hr

/-- The fields a MISO draw and an exchange leave alone. -/
theorem exchange_mem (b : Byte) (s : State) : (exchange b s).mem = s.mem := by
  simp only [exchange, drawMiso]
  split <;> rfl

end Sys2Proof.Machine
end

