-- ==== Sys2Proof/Laws/Sequencer.lean ====
section
/-! SUPPORT. The sequencer: what a raise, the start and the end of a phase, an issue and a direct access answer, said once (10_state.md R107; 60_exceptions.md R603-R611). -/

namespace Sys2Proof.Machine

/-- The three ways a raise is taken (R610). -/
theorem raise_cases (t : Nat) (p : Option Place) (e : Abnormal) (s : State) :
    raise t p e s = haltWith t p e s ∨
      (isFault e = false ∧ s.par.errorPolicy = .report ∧
        ((∃ l, p = some (.step l) ∧ raise t p e s = complete t (abnormalCode e) 0x00#8 s) ∨
          ((∀ l, p ≠ some (.step l)) ∧ raise t p e s = reportAtIssue t (abnormalCode e) s))) := by
  unfold raise
  cases hf : isFault e
  · cases hp : s.par.errorPolicy
    · exact .inl rfl
    · refine .inr ⟨rfl, rfl, ?_⟩
      rcases p with _ | _ | l
      · exact .inr ⟨by simp, rfl⟩
      · exact .inr ⟨by simp, rfl⟩
      · exact .inl ⟨l, rfl, rfl⟩
  · exact .inl rfl

/-- A fault halts under both policies (R600). -/
theorem raise_fault {e : Abnormal} (h : isFault e = true) (t : Nat) (p : Option Place) (s : State) :
    raise t p e s = haltWith t p e s := by
  simp [raise, h]

/-- Copy phases of no byte apart, the operation ends or the next step's label is set. -/
theorem startPhases_cases (t : Nat) (ps : List Phase) (top : Option Invocation) (code data : Byte) (s : State) :
    startPhases t ps top code data s = complete t code data s ∨
      startPhases t ps top code data s = complete t codeOk 0x00#8 s ∨
        ∃ c rest, startPhases t ps top code data s = s.setCtx t ⟨some c, rest, top⟩ := by
  induction ps generalizing code data with
  | nil => exact .inl rfl
  | cons p ps ih =>
    rcases p with op | ⟨dst, src, _ | n⟩
    · exact .inr (.inr ⟨_, _, rfl⟩)
    · rcases ih codeOk 0x00#8 with h | h | h
      · exact .inr (.inl h)
      · exact .inr (.inl h)
      · exact .inr (.inr h)
    · exact .inr (.inr ⟨_, _, rfl⟩)

/-- An issue that passes its checks starts the operation (R603). -/
theorem issue_ok {isTxd : Bool} {d x y : Word} {checks : List (Bool × Abnormal)} {ps : List Phase} {s : State}
    (hh : s.halted = none) (ha : s.active = none) (hc : firstError checks = none) :
    issue isTxd d x y checks ps s =
      .next (startOperation s.curTask (.op d x y) ps (s.emit (.issue s.curTask d x y))) := by
  simp [issue, serializationError, hh, ha, hc]

/-- An issue that fails a check raises it, the Issue event recorded (R603). -/
theorem issue_cases {isTxd : Bool} {d x y : Word} {checks : List (Bool × Abnormal)} {ps : List Phase}
    {s s' : State} (h : issue isTxd d x y checks ps s = .next s') :
    s.halted = none ∧
      ((∃ e, s' = raise s.curTask (some .issue) e (s.emit (.issue s.curTask d x y))) ∨
        (s.active = none ∧ firstError checks = none ∧
          s' = startOperation s.curTask (.op d x y) ps (s.emit (.issue s.curTask d x y)))) := by
  unfold issue at h
  cases hh : s.halted with
  | some e => simp [hh] at h
  | none =>
    refine ⟨rfl, ?_⟩
    simp only [hh, Option.isSome_none, Bool.false_eq_true, if_false] at h
    cases hs : serializationError isTxd s with
    | some e => simp only [hs] at h; cases h; exact .inl ⟨e, rfl⟩
    | none =>
      simp only [hs] at h
      cases hc : firstError checks with
      | some e => simp only [hc] at h; cases h; exact .inl ⟨e, rfl⟩
      | none =>
        simp only [hc] at h
        cases h
        refine .inr ⟨?_, rfl, rfl⟩
        cases ha : s.active with
        | none => rfl
        | some u =>
          simp only [serializationError, ha] at hs
          split at hs <;> cases hs

/-- Another task's operation is active exactly when `active` names another task. -/
theorem otherActive_none {t : Nat} {s : State} (h : s.active = none ∨ s.active = some t) :
    otherActive t s = none := by
  rcases h with h | h <;> simp [otherActive, h]

/-- A direct read that is not shut out is the task's read (R606). -/
theorem directRead_open {r : Reg} {n : Nat} {s : State} (hh : s.halted = none)
    (ha : s.active = none ∨ s.active = some s.curTask) :
    directRead r n s =
      match taskRead s.curTask r n s with
      | .ok _ s' => .next s'
      | .raised e s' => .next (raise s.curTask none e s') := by
  unfold directRead
  rw [if_neg (by simp [hh]), otherActive_none ha] <;> cases taskRead s.curTask r n s <;> rfl

/-- A direct write that is not shut out is the task's write (R606). -/
theorem directWrite_open {r : Reg} {n : Nat} {v : Word} {s : State} (hh : s.halted = none)
    (ha : s.active = none ∨ s.active = some s.curTask) :
    directWrite r n v s =
      match taskWrite s.curTask r n v s with
      | .ok _ s' => .next s'
      | .raised e s' => .next (raise s.curTask none e s') := by
  unfold directWrite
  rw [if_neg (by simp [hh]), otherActive_none ha] <;> cases taskWrite s.curTask r n v s <;> rfl

/-- A direct read of an accepted size of a register that has a value: the access is recorded. -/
theorem directRead_ok {r : Reg} {n : Nat} {s s1 : State} {v : Word} (hh : s.halted = none)
    (ha : s.active = none ∨ s.active = some s.curTask) (hn : regSizeOk r n = true)
    (hr : readReg r s = some (v, s1)) :
    directRead r n s = .next (s1.emit (.regAcc (.task s.curTask) (regOffset r) n .read v)) := by
  rw [directRead_open hh ha, taskRead, if_pos hn, regReadBy, hr]

/-- A direct read of another size halts. -/
theorem directRead_size {r : Reg} {n : Nat} {s : State} (hh : s.halted = none)
    (ha : s.active = none ∨ s.active = some s.curTask) (hn : regSizeOk r n = false) :
    directRead r n s = .next (haltWith s.curTask none (.badRegisterAccess (regOffset r)) s) := by
  rw [directRead_open hh ha, taskRead, if_neg (by simp [hn])]
  rfl

/-- A direct write that passes the checks: the access is recorded, then the register's effect. -/
theorem directWrite_ok {r : Reg} {n : Nat} {v : Word} {s s1 : State} (hh : s.halted = none)
    (ha : s.active = none ∨ s.active = some s.curTask) (hn : regWriteOk r n v s = true)
    (hr : writeReg r v (s.emit (.regAcc (.task s.curTask) (regOffset r) n .write (accessValue n v))) = some s1) :
    directWrite r n v s = .next s1 := by
  rw [directWrite_open hh ha, taskWrite, if_pos hn, regWriteBy, hr]

/-- A direct write that fails a check halts. -/
theorem directWrite_refused {r : Reg} {n : Nat} {v : Word} {s : State} (hh : s.halted = none)
    (ha : s.active = none ∨ s.active = some s.curTask) (hn : regWriteOk r n v s = false) :
    directWrite r n v s = .next (haltWith s.curTask none (.badRegisterAccess (regOffset r)) s) := by
  rw [directWrite_open hh ha, taskWrite, if_neg (by simp [hn])]
  rfl

/-- What a direct read can do: the admitted read, or a fault that halts. -/
theorem directRead_cases {r : Reg} {n : Nat} {s s' : State} (h : directRead r n s = .next s') :
    (∃ v, regReadBy (.task s.curTask) r n s = some (v, s')) ∨ ∃ e, s' = haltWith s.curTask none e s := by
  unfold directRead at h
  split at h
  · cases h
  · split at h
    · cases h; exact .inr ⟨_, raise_fault rfl _ _ _⟩
    · rcases taskRead_cases s.curTask r n s with ⟨v, s1, h1, h2⟩ | ⟨e, h1, h2⟩
      · rw [h1] at h; cases h; exact .inl ⟨v, h2⟩
      · rw [h1] at h; cases h; exact .inr ⟨e, raise_fault h2 _ _ _⟩

/-- What a direct write can do: the admitted write, or a fault that halts. -/
theorem directWrite_cases {r : Reg} {n : Nat} {v : Word} {s s' : State} (h : directWrite r n v s = .next s') :
    (regWriteOk r n v s = true ∧ regWriteBy (.task s.curTask) r n v s = some s') ∨
      ∃ e, s' = haltWith s.curTask none e s := by
  unfold directWrite at h
  split at h
  · cases h
  · split at h
    · cases h; exact .inr ⟨_, raise_fault rfl _ _ _⟩
    · rcases taskWrite_cases s.curTask r n v s with ⟨s1, h1, h2, h3⟩ | ⟨e, h1, h2⟩
      · rw [h1] at h; cases h; exact .inl ⟨h2, h3⟩
      · rw [h1] at h; cases h; exact .inr ⟨e, raise_fault h2 _ _ _⟩

end Sys2Proof.Machine
end

