-- ==== Sys2Proof/Laws/Runs.lean ====
section
/-! SUPPORT. Steps of named agents: a run of one agent is its turn, a turn not enabled makes no move, and the shapes of a task's step, each said once (00_scope.md R13, R14). -/

namespace Sys2Proof.Machine

open Sys2Proof.Safety

/-- A step gives the listed agent its turn. -/
theorem step_turn {s : State} {a : Agent} {r : List Agent} (hr : running s) (hd : s.draws.agents = a :: r) :
    step s = turn a (s.setDraws { s.draws with agents := r }) := by
  simp only [step, oneStep, hr.1, hr.2, drawAgent, hd, Option.isSome_none, if_true, Bool.false_eq_true, if_false]

/-- One more step of a run. -/
theorem run_succ {n : Nat} {s s' : State} {a : Agent} {r : List Agent} (hr : running s)
    (hd : s.draws.agents = a :: r) (ht : turn a (s.setDraws { s.draws with agents := r }) = .next s') :
    Host.Core.run Sys2Proof.core (n + 1) s = Host.Core.run Sys2Proof.core n s' := by
  have h : Sys2Proof.core.step s = .next s' := (step_turn hr hd).trans ht
  simp only [Host.Core.run, h]

/-- A run of one agent is its turn. -/
theorem runs_single {s : State} (hr : running s) (a : Agent) : runs [a] s = turn a s := by
  have h : Sys2Proof.core.step { s with draws := { s.draws with agents := a :: s.draws.agents } } = turn a s :=
    step_turn (s := { s with draws := { s.draws with agents := a :: s.draws.agents } }) hr rfl
  show Host.Core.run Sys2Proof.core 1 _ = _
  simp only [Host.Core.run]
  rw [show Sys2Proof.core.step
    { s with draws := { s.draws with agents := [a] ++ s.draws.agents } } = turn a s from h]
  cases turn a s <;> rfl

/-- An agent without an enabled step makes no move. -/
theorem turn_off {a : Agent} {s : State} (h : enabled a s = false) : turn a s = .next s := by
  simp [turn, h]

/-- An agent with an enabled step takes it. -/
theorem turn_on {a : Agent} {s : State} (h : enabled a s = true) : turn a s = agentStep a s := by
  simp [turn, h]

/-- The fields of a task that exists. -/
theorem taskAt_onTask {t : Nat} {k : TaskState} {s : State} (h : t < s.tasks.length) :
    (onTask t k s).taskAt t = k := by
  simp [onTask, State.taskAt, h]

/-- A task in an operation takes the step at its label when its hold allows. -/
theorem turn_task {t : Nat} {l : Label} {c : Locals} {ps : List Phase} {s : State} (hs : atStep t l c ps s)
    (hh : holdOk t ⟨l, c⟩ s = true) :
    turn (.task t) s = .next (operationStep t ⟨l, c⟩ (s.setCurTask t)) := by
  have he : enabled (.task t) s = true := by simp [enabled, taskEnabled, hs.2.1, hh]
  rw [turn_on he]
  simp [agentStep, taskStep, hs.2.1]

/-- A task in an operation makes no move while its hold does not allow the step. -/
theorem turn_task_holds {t : Nat} {l : Label} {c : Locals} {ps : List Phase} {s : State}
    (hs : atStep t l c ps s) (hh : holdOk t ⟨l, c⟩ s = false) : turn (.task t) s = .next s :=
  turn_off (by simp [enabled, taskEnabled, hs.2.1, hh])

/-- An idle task executes the head of its program. -/
theorem turn_idle {t : Nat} {inv : Invocation} {rest : List Invocation} {s : State}
    (hs : aboutTo t inv rest s) : turn (.task t) s = invoke t inv rest s := by
  have hc : (s.taskAt t).ctx.cur = none := by rw [hs.2.1]; rfl
  have he : enabled (.task t) s = true := by
    simp [enabled, taskEnabled, hs.2.1, hs.2.2, Ctx.idle, ctxIdle]
  rw [turn_on he]
  simp [agentStep, taskStep, hc, hs.2.2]

/-- A step that reads a register that has a value. -/
theorem stepRead_ok {t : Nat} {l : Label} {r : Reg} {n : Nat} {k : Word → State → State} {s s1 : State}
    {v : Word} (hn : regSizeOk r n = true) (hr : readReg r s = some (v, s1)) :
    stepRead t l r n k s = k v (s1.emit (.regAcc (.task t) (regOffset r) n .read v)) := by
  simp only [stepRead, taskRead, hn, if_true, regReadBy, hr]

/-- A step that writes a register and passes the checks. -/
theorem stepWrite_ok {t : Nat} {l : Label} {r : Reg} {n : Nat} {v : Word} {k : State → State} {s s1 : State}
    (hn : regWriteOk r n v s = true)
    (hr : writeReg r v (s.emit (.regAcc (.task t) (regOffset r) n .write (accessValue n v))) = some s1) :
    stepWrite t l r n v k s = k s1 := by
  simp only [stepWrite, taskWrite, hn, if_true, regWriteBy, hr]

/-- A step that reads an admitted byte. -/
theorem stepMemRead_ok {t : Nat} {l : Label} {a : Word} {k : Byte → State → State} {s : State}
    (ha : admitted s.par a = true) :
    stepMemRead t l a k s = k (memGet s.mem a.toNat) (s.emit (.memRd (.task t) a (memGet s.mem a.toNat))) := by
  simp only [stepMemRead, taskMemRead, memRead, ha, if_true]

/-- A step that writes an admitted byte. -/
theorem stepMemWrite_ok {t : Nat} {l : Label} {a : Word} {b : Byte} {k : State → State} {s : State}
    (ha : admitted s.par a = true) :
    stepMemWrite t l a b k s = k ((s.setMem (memPut s.mem a.toNat b)).emit (.memWr (.task t) a b)) := by
  simp only [stepMemWrite, taskMemWrite, memWrite, ha, if_true]

/-- A return with no phase left ends the operation. -/
theorem returnOp_last {t : Nat} {code data : Byte} {s : State} (h : (s.taskAt t).ctx.phases = []) :
    returnOp t code data s = complete t code data s := by
  simp only [returnOp, h, startPhases]

/-- Everything the start of the phases to come can do, as the state a statement names; the label and the
phases that task `t` had are replaced. -/
theorem startPhases_afterReturn {t : Nat} {s : State} (h : t < s.tasks.length) (k : TaskState) (c : Option Cur)
    (qs ps : List Phase) (data : Byte) :
    startPhases t ps k.ctx.top codeOk data (onTask t { k with ctx := { k.ctx with cur := c, phases := qs } } s) =
      afterReturn t k data ps s := by
  induction ps generalizing data with
  | nil =>
    simp [startPhases, afterReturn, complete, onTask, State.setResult, State.setCtx, State.setTask,
      State.setActive, State.emit, State.taskAt, h, codeOk]
  | cons p ps ih =>
    rcases p with op | ⟨dst, src, _ | n⟩
    · simp [startPhases, afterReturn, onTask, State.setCtx, State.setTask, State.taskAt, h]
    · exact ih 0x00#8
    · simp [startPhases, afterReturn, onTask, State.setCtx, State.setTask, State.taskAt, h]

/-- A return of (OK, data) by task `t`, whose label moved since the state a statement starts from. -/
theorem returnOp_afterReturn {t : Nat} {s : State} (h : t < s.tasks.length) (k : TaskState) (c : Option Cur)
    (data : Byte) :
    returnOp t codeOk data (onTask t { k with ctx := { k.ctx with cur := c } } s) =
      afterReturn t k data k.ctx.phases s := by
  have hk : (onTask t { k with ctx := { k.ctx with cur := c } } s).taskAt t =
      { k with ctx := { k.ctx with cur := c } } := taskAt_onTask h
  rw [returnOp, hk]
  exact startPhases_afterReturn h k c k.ctx.phases k.ctx.phases data

/-- In a run, a task in an operation takes the step at its label. -/
theorem run_task {n : Nat} {s : State} {t : Nat} {l : Label} {c : Locals} {k : TaskState} {r : List Agent}
    (hr : running s) (hd : s.draws.agents = .task t :: r) (hk : s.tasks[t]? = some k)
    (hs : k.ctx.cur = some ⟨l, c⟩) (hh : holdOk t ⟨l, c⟩ s = true) :
    Host.Core.run Sys2Proof.core (n + 1) s =
      Host.Core.run Sys2Proof.core n
        (operationStep t ⟨l, c⟩ ((s.setDraws { s.draws with agents := r }).setCurTask t)) := by
  have hs' : (s.taskAt t).ctx.cur = some ⟨l, c⟩ := by simp [State.taskAt, hk, hs]
  refine run_succ hr hd (turn_task (ps := (s.taskAt t).ctx.phases) ⟨?_, hs', rfl⟩ hh)
  exact (List.getElem?_eq_some_iff.mp hk).1

/-- In a run, the shift engine takes START. -/
theorem run_start {n : Nat} {s : State} {r : List Agent} (hr : running s) (hd : s.draws.agents = .shift :: r)
    (h1 : s.spi.txe = false) (h2 : s.spi.bsy = false) :
    Host.Core.run Sys2Proof.core (n + 1) s =
      Host.Core.run Sys2Proof.core n (spiStart (s.setDraws { s.draws with agents := r })) := by
  refine run_succ hr hd ?_
  rw [turn_on (by simp [enabled, shiftEnabled, startEnabled, State.setDraws, h1, h2])]
  simp [agentStep, shiftStep, startEnabled, State.setDraws, h1, h2]

/-- A command byte's instruction is the exchange of that byte. -/
theorem exec_fcb {b : Byte} {i : Instr} (s : State) (h : decode (.fcb b) = .ok i) :
    exec i s = emitCommandByte b s := by
  simp only [decode, decodeFcb] at h
  split at h
  · cases h; simp only [exec, execWRegister]; congr 1; rename_i h; revert b; decide
  · split at h
    · cases h; subst b; rfl
    · split at h
      · cases h; subst b; rfl
      · split at h
        · cases h; subst b; rfl
        · cases h

/-- In a run, the shift engine takes FINISH, whichever byte it shifts. -/
theorem run_finish {n : Nat} {s : State} {r : List Agent} (hr : running s) (hd : s.draws.agents = .shift :: r)
    (h : finishEnabled s = true) :
    Host.Core.run Sys2Proof.core (n + 1) s =
      Host.Core.run Sys2Proof.core n (exchange s.spi.shreg (s.setDraws { s.draws with agents := r })) := by
  have hf : finishEnabled (s.setDraws { s.draws with agents := r }) = true := h
  have hb : s.spi.bsy = true := by simp [finishEnabled] at h; exact h.1
  refine run_succ hr hd ?_
  rw [turn_on (by simp [enabled, shiftEnabled, hf])]
  simp only [agentStep, shiftStep]
  rw [if_neg (by simp [startEnabled, State.setDraws, hb])]
  split
  · rw [exec_fcb _ ‹_›]
    unfold emitCommandByte
    rw [if_neg (by simp [State.setDraws, hr.2]), if_pos hf]
    rfl
  · rfl

/-- In a run, the timer ticks. -/
theorem run_tick {n : Nat} {s : State} {r : List Agent} (hr : running s) (hd : s.draws.agents = .timer :: r)
    (h1 : s.tmr.running = true) :
    Host.Core.run Sys2Proof.core (n + 1) s =
      Host.Core.run Sys2Proof.core n (tick (s.setDraws { s.draws with agents := r })) := by
  refine run_succ hr hd ?_
  rw [turn_on (by simp [enabled, State.setDraws, h1])]
  rfl

end Sys2Proof.Machine
end

