-- ==== Sys2Proof/Laws/Final.lean ====
section
/-! SUPPORT. The end of a run: a run stops at its first final state, and in a final state only the timer, the device and the timer-overflow handler have a step (10_state.md R180). -/

namespace Sys2Proof.Machine

open Sys2Proof.Safety

/-- A run goes no further from a final state. -/
theorem runNext_final {s : State} (h : isFinal s = true) : runNext s = none := by
  simp [runNext, h]

/-- Elsewhere a run goes on exactly as the machine steps. -/
theorem runNext_eq_some {s s' : State} :
    runNext s = some s' ↔ isFinal s = false ∧ step s = .next s' := by
  unfold runNext
  cases isFinal s <;> cases step s <;> simp

/-- What is final is not halted. -/
theorem not_final_of_halted {s : State} (h : s.halted.isSome = true) : isFinal s = false := by
  cases hh : s.halted <;> simp_all [isFinal]

/-- A run goes no further from a halted state, which is not final. -/
theorem runNext_halted {s : State} (h : s.halted.isSome = true) : runNext s = none := by
  simp only [runNext, step, oneStep, h, not_final_of_halted h, Bool.false_eq_true, if_false, if_true]
  by_cases hl : launchOk s.par s.tasks.length = true <;> simp [hl]

/-- A run that has ended stays ended. -/
theorem runAt_ended {s : State} {k : Nat} (h : runAt s k = none) (j : Nat) : runAt s (k + j) = none := by
  induction j with
  | zero => exact h
  | succ j ih => simp [runAt, ih]

/-- The state of a run that is final is the last: nothing follows it. -/
theorem runAt_after_final {s s' : State} {k : Nat} (h : runAt s k = some s') (hf : isFinal s' = true) (j : Nat) :
    runAt s (k + 1 + j) = none :=
  runAt_ended (by simp [runAt, h, runNext_final hf]) j

/-- No state before another of a run is final, so a final state of a run is its first. -/
theorem runAt_before {s s' s'' : State} {k j : Nat} (h : runAt s k = some s') (h' : runAt s (k + 1 + j) = some s'') :
    isFinal s' = false := by
  cases hf : isFinal s'
  · rfl
  · rw [runAt_after_final h hf] at h'; cases h'

/-- A run ends in at most one final state. -/
theorem endsIn_unique {s a b : State} (ha : endsIn s a) (hb : endsIn s b) : a = b := by
  obtain ⟨i, hi, fa⟩ := ha
  obtain ⟨j, hj, fb⟩ := hb
  rcases Nat.lt_trichotomy i j with h | rfl | h
  · obtain ⟨d, rfl⟩ := Nat.exists_eq_add_of_lt h
    rw [Nat.add_right_comm, runAt_after_final hi fa] at hj; cases hj
  · exact Option.some.inj (hi.symm.trans hj)
  · obtain ⟨d, rfl⟩ := Nat.exists_eq_add_of_lt h
    rw [Nat.add_right_comm, runAt_after_final hj fb] at hi; cases hi

/-- The runs are the sequences `runAt s`. -/
theorem isRun_iff {tr : Nat → Option State} : isRun tr ↔ ∃ s, tr = runAt s := by
  refine ⟨fun ⟨⟨s, h0⟩, hs⟩ => ⟨s, funext fun k => ?_⟩, ?_⟩
  · induction k with
    | zero => exact h0
    | succ k ih => rw [hs k, ih, runAt]
  · rintro ⟨s, rfl⟩
    exact ⟨⟨s, rfl⟩, fun _ => rfl⟩

/-- A task of a final state is done; a number that is no task's reads as one that is. -/
theorem taskAt_final {s : State} (h : isFinal s = true) (t : Nat) :
    (s.taskAt t).prog = [] ∧ (s.taskAt t).ctx = Ctx.idle := by
  unfold State.taskAt
  cases hk : s.tasks[t]? with
  | none => exact ⟨rfl, rfl⟩
  | some k =>
    have hm := List.mem_of_getElem? hk
    simp only [isFinal, tasksDone, Bool.and_eq_true, List.all_eq_true] at h
    have := h.1.1.1.1.1.1.1.1.2 k hm
    simp only [List.isEmpty_iff, ctxIdle, beq_iff_eq] at this
    exact this

/-- In a final state only the timer, the device and the timer-overflow handler have a step. -/
theorem enabled_final {s : State} (h : isFinal s = true) {a : Agent} (ha : enabled a s = true) :
    a = .timer ∨ a = .device ∨ a = .ovfHandler := by
  have ht := taskAt_final h
  simp only [isFinal, Bool.and_eq_true, Bool.not_eq_true'] at h
  obtain ⟨⟨⟨⟨⟨⟨⟨⟨⟨-, -⟩, -⟩, -⟩, hq⟩, hp⟩, hx⟩, hb⟩, h0⟩, h1⟩ := h
  cases a with
  | task t => simp [enabled, taskEnabled, ht t, Ctx.idle] at ha
  | shift => simp [enabled, shiftEnabled, startEnabled, finishEnabled, hx, hb] at ha
  | dma n => cases n <;> simp [enabled, dmaEnabled, State.dma, h0, h1] at ha
  | dmaHandler => simp [enabled, hq] at ha
  | irqHandler => simp [enabled, hp] at ha
  | timeout t => simp [enabled, timeoutEnabled, waiting, ht t, Ctx.idle] at ha
  | timer => exact .inl rfl
  | device => exact .inr (.inl rfl)
  | ovfHandler => exact .inr (.inr rfl)

end Sys2Proof.Machine
end

