-- ==== Sys2Proof/Laws/PerInstr.lean ====
section
/-! SUPPORT. The encoder held against spec/opcode_table.json, one lemma per instruction: the word it writes, under the row's mask, is the row's match. -/

namespace Sys2Proof.Laws.EncodingMatchesRow

/-- The words of an instruction match a row of the table with this mask and match. -/
def fits (mask mtch : Nat) : Words → Prop
  | .rac c _ _ => c.toNat &&& mask = mtch
  | .desc d _ _ => d &&& BitVec.ofNat 32 mask = BitVec.ofNat 32 mtch
  | .fcb b => b &&& BitVec.ofNat 8 mask = BitVec.ofNat 8 mtch

/-- The mask and match of an instruction's row. -/
def row : Instr → Nat × Nat
  | .rdSpiDr _ => (0x1FF, 0x000)
  | .wrSpiDr _ _ => (0x1FF, 0x100)
  | .rdSpiSr _ => (0x1FF, 0x004)
  | .wrSpiSr _ _ => (0x1FF, 0x104)
  | .rdSpiCr _ => (0x1FF, 0x008)
  | .wrSpiCr _ _ => (0x1FF, 0x108)
  | .rdCsSet _ => (0x1FF, 0x010)
  | .wrCsSet _ _ => (0x1FF, 0x110)
  | .rdCsClr _ => (0x1FF, 0x014)
  | .wrCsClr _ _ => (0x1FF, 0x114)
  | .rdCsState _ => (0x1FF, 0x018)
  | .rdCeSet _ => (0x1FF, 0x020)
  | .wrCeSet _ _ => (0x1FF, 0x120)
  | .rdCeClr _ => (0x1FF, 0x024)
  | .wrCeClr _ _ => (0x1FF, 0x124)
  | .rdCeState _ => (0x1FF, 0x028)
  | .rdCeCfg _ => (0x1FF, 0x02C)
  | .wrCeCfg _ _ => (0x1FF, 0x12C)
  | .rdIrqCfg _ => (0x1FF, 0x030)
  | .wrIrqCfg _ _ => (0x1FF, 0x130)
  | .rdIrqPend _ => (0x1FF, 0x034)
  | .wrIrqPend _ _ => (0x1FF, 0x134)
  | .rdTmrCtrl _ => (0x1FF, 0x040)
  | .wrTmrCtrl _ _ => (0x1FF, 0x140)
  | .rdTmrLoad _ => (0x1FF, 0x044)
  | .wrTmrLoad _ _ => (0x1FF, 0x144)
  | .rdTmrCount _ => (0x1FF, 0x048)
  | .rdTmrIer _ => (0x1FF, 0x04C)
  | .wrTmrIer _ _ => (0x1FF, 0x14C)
  | .rdTmrSr _ => (0x1FF, 0x050)
  | .wrTmrSr _ _ => (0x1FF, 0x150)
  | .rdDmaSrc0 _ => (0x1FF, 0x080)
  | .wrDmaSrc0 _ _ => (0x1FF, 0x180)
  | .rdDmaDst0 _ => (0x1FF, 0x084)
  | .wrDmaDst0 _ _ => (0x1FF, 0x184)
  | .rdDmaCnt0 _ => (0x1FF, 0x088)
  | .wrDmaCnt0 _ _ => (0x1FF, 0x188)
  | .rdDmaCtrl0 _ => (0x1FF, 0x08C)
  | .wrDmaCtrl0 _ _ => (0x1FF, 0x18C)
  | .rdDmaFlags0 _ => (0x1FF, 0x090)
  | .wrDmaFlags0 _ _ => (0x1FF, 0x190)
  | .rdDmaSrc1 _ => (0x1FF, 0x0A0)
  | .wrDmaSrc1 _ _ => (0x1FF, 0x1A0)
  | .rdDmaDst1 _ => (0x1FF, 0x0A4)
  | .wrDmaDst1 _ _ => (0x1FF, 0x1A4)
  | .rdDmaCnt1 _ => (0x1FF, 0x0A8)
  | .wrDmaCnt1 _ _ => (0x1FF, 0x1A8)
  | .rdDmaCtrl1 _ => (0x1FF, 0x0AC)
  | .wrDmaCtrl1 _ _ => (0x1FF, 0x1AC)
  | .rdDmaFlags1 _ => (0x1FF, 0x0B0)
  | .wrDmaFlags1 _ _ => (0x1FF, 0x1B0)
  | .rdDmaIrq _ => (0x1FF, 0x0C0)
  | .wrDmaIrq _ _ => (0x1FF, 0x1C0)
  | .rdb _ _ => (0xFFFFFFFF, 0x01000000)
  | .txb _ _ _ => (0xFFFF00FF, 0x02000000)
  | .txp _ _ _ => (0xFFFFFF00, 0x03000000)
  | .txd _ _ _ => (0xFFFFFF00, 0x04000000)
  | .scs _ _ _ => (0xFFFEFFFF, 0x05000000)
  | .pulse _ _ => (0xFFFFFFFF, 0x10000000)
  | .wreg _ _ _ _ => (0xFF0000FF, 0x20000000)
  | .waddr _ _ _ _ => (0xFF00FF00, 0x21000000)
  | .cmd _ _ _ => (0xFFFF00FF, 0x22000000)
  | .rstat _ _ => (0xFFFFFFFF, 0x23000000)
  | .send _ _ _ => (0xFFFFFF00, 0x24000000)
  | .init _ _ => (0xFFFFFFFF, 0x25000000)
  | .wRegister _ => (0xE0, 0x20)
  | .wTxPayload => (0xFF, 0xA0)
  | .flushTx => (0xFF, 0xE1)
  | .flushRx => (0xFF, 0xE2)

theorem append_and {k m : Nat} (a b : BitVec k) (x y : BitVec m) :
    (a ++ x) &&& (b ++ y) = (a &&& b) ++ (x &&& y) := by
  ext i hi
  simp only [BitVec.getElem_and, BitVec.getElem_append]
  split <;> simp

/-- A mask acts on the four fields of a descriptor one by one. -/
theorem mkDesc_and (opc a b n mo ma mb mn : Byte) :
    mkDesc opc a b n &&& mkDesc mo ma mb mn = mkDesc (opc &&& mo) (a &&& ma) (b &&& mb) (n &&& mn) :=
  (append_and (k := 24) (m := 8) (opc ++ a ++ b) (mo ++ ma ++ mb) n mn).trans
    (congrArg (fun x : BitVec 24 => x ++ (n &&& mn)) ((append_and (k := 16) (opc ++ a) (mo ++ ma) b mb).trans
      (congrArg (fun x : BitVec 16 => x ++ (b &&& mb)) (append_and opc mo a ma))))

/-- A descriptor under a mask that keeps OPC. -/
theorem masked_desc (opc a b n ma mb mn : Byte) {mask mtch : Nat}
    (hm : mkDesc 0xFF ma mb mn = BitVec.ofNat 32 mask)
    (h : mkDesc opc (a &&& ma) (b &&& mb) (n &&& mn) = BitVec.ofNat 32 mtch) :
    mkDesc opc a b n &&& BitVec.ofNat 32 mask = BitVec.ofNat 32 mtch := by
  rw [← hm, mkDesc_and, ← h, show opc &&& 0xFF = opc from BitVec.and_allOnes]

/-- The encoder writes a word of the instruction's row. -/
def Statement (i : Instr) : Prop := fits (row i).1 (row i).2 (encode i)

theorem rdSpiDr (n : Nat) : Statement (.rdSpiDr n) :=
  show (accessCode .read (regOffset .spiDr)).toNat &&& 0x1FF = 0x000 by decide

theorem wrSpiDr (n : Nat) (v : Word) : Statement (.wrSpiDr n v) :=
  show (accessCode .write (regOffset .spiDr)).toNat &&& 0x1FF = 0x100 by decide

theorem rdSpiSr (n : Nat) : Statement (.rdSpiSr n) :=
  show (accessCode .read (regOffset .spiSr)).toNat &&& 0x1FF = 0x004 by decide

theorem wrSpiSr (n : Nat) (v : Word) : Statement (.wrSpiSr n v) :=
  show (accessCode .write (regOffset .spiSr)).toNat &&& 0x1FF = 0x104 by decide

theorem rdSpiCr (n : Nat) : Statement (.rdSpiCr n) :=
  show (accessCode .read (regOffset .spiCr)).toNat &&& 0x1FF = 0x008 by decide

theorem wrSpiCr (n : Nat) (v : Word) : Statement (.wrSpiCr n v) :=
  show (accessCode .write (regOffset .spiCr)).toNat &&& 0x1FF = 0x108 by decide

theorem rdCsSet (n : Nat) : Statement (.rdCsSet n) :=
  show (accessCode .read (regOffset .csSet)).toNat &&& 0x1FF = 0x010 by decide

theorem wrCsSet (n : Nat) (v : Word) : Statement (.wrCsSet n v) :=
  show (accessCode .write (regOffset .csSet)).toNat &&& 0x1FF = 0x110 by decide

theorem rdCsClr (n : Nat) : Statement (.rdCsClr n) :=
  show (accessCode .read (regOffset .csClr)).toNat &&& 0x1FF = 0x014 by decide

theorem wrCsClr (n : Nat) (v : Word) : Statement (.wrCsClr n v) :=
  show (accessCode .write (regOffset .csClr)).toNat &&& 0x1FF = 0x114 by decide

theorem rdCsState (n : Nat) : Statement (.rdCsState n) :=
  show (accessCode .read (regOffset .csState)).toNat &&& 0x1FF = 0x018 by decide

theorem rdCeSet (n : Nat) : Statement (.rdCeSet n) :=
  show (accessCode .read (regOffset .ceSet)).toNat &&& 0x1FF = 0x020 by decide

theorem wrCeSet (n : Nat) (v : Word) : Statement (.wrCeSet n v) :=
  show (accessCode .write (regOffset .ceSet)).toNat &&& 0x1FF = 0x120 by decide

theorem rdCeClr (n : Nat) : Statement (.rdCeClr n) :=
  show (accessCode .read (regOffset .ceClr)).toNat &&& 0x1FF = 0x024 by decide

theorem wrCeClr (n : Nat) (v : Word) : Statement (.wrCeClr n v) :=
  show (accessCode .write (regOffset .ceClr)).toNat &&& 0x1FF = 0x124 by decide

theorem rdCeState (n : Nat) : Statement (.rdCeState n) :=
  show (accessCode .read (regOffset .ceState)).toNat &&& 0x1FF = 0x028 by decide

theorem rdCeCfg (n : Nat) : Statement (.rdCeCfg n) :=
  show (accessCode .read (regOffset .ceCfg)).toNat &&& 0x1FF = 0x02C by decide

theorem wrCeCfg (n : Nat) (v : Word) : Statement (.wrCeCfg n v) :=
  show (accessCode .write (regOffset .ceCfg)).toNat &&& 0x1FF = 0x12C by decide

theorem rdIrqCfg (n : Nat) : Statement (.rdIrqCfg n) :=
  show (accessCode .read (regOffset .irqCfg)).toNat &&& 0x1FF = 0x030 by decide

theorem wrIrqCfg (n : Nat) (v : Word) : Statement (.wrIrqCfg n v) :=
  show (accessCode .write (regOffset .irqCfg)).toNat &&& 0x1FF = 0x130 by decide

theorem rdIrqPend (n : Nat) : Statement (.rdIrqPend n) :=
  show (accessCode .read (regOffset .irqPend)).toNat &&& 0x1FF = 0x034 by decide

theorem wrIrqPend (n : Nat) (v : Word) : Statement (.wrIrqPend n v) :=
  show (accessCode .write (regOffset .irqPend)).toNat &&& 0x1FF = 0x134 by decide

theorem rdTmrCtrl (n : Nat) : Statement (.rdTmrCtrl n) :=
  show (accessCode .read (regOffset .tmrCtrl)).toNat &&& 0x1FF = 0x040 by decide

theorem wrTmrCtrl (n : Nat) (v : Word) : Statement (.wrTmrCtrl n v) :=
  show (accessCode .write (regOffset .tmrCtrl)).toNat &&& 0x1FF = 0x140 by decide

theorem rdTmrLoad (n : Nat) : Statement (.rdTmrLoad n) :=
  show (accessCode .read (regOffset .tmrLoad)).toNat &&& 0x1FF = 0x044 by decide

theorem wrTmrLoad (n : Nat) (v : Word) : Statement (.wrTmrLoad n v) :=
  show (accessCode .write (regOffset .tmrLoad)).toNat &&& 0x1FF = 0x144 by decide

theorem rdTmrCount (n : Nat) : Statement (.rdTmrCount n) :=
  show (accessCode .read (regOffset .tmrCount)).toNat &&& 0x1FF = 0x048 by decide

theorem rdTmrIer (n : Nat) : Statement (.rdTmrIer n) :=
  show (accessCode .read (regOffset .tmrIer)).toNat &&& 0x1FF = 0x04C by decide

theorem wrTmrIer (n : Nat) (v : Word) : Statement (.wrTmrIer n v) :=
  show (accessCode .write (regOffset .tmrIer)).toNat &&& 0x1FF = 0x14C by decide

theorem rdTmrSr (n : Nat) : Statement (.rdTmrSr n) :=
  show (accessCode .read (regOffset .tmrSr)).toNat &&& 0x1FF = 0x050 by decide

theorem wrTmrSr (n : Nat) (v : Word) : Statement (.wrTmrSr n v) :=
  show (accessCode .write (regOffset .tmrSr)).toNat &&& 0x1FF = 0x150 by decide

theorem rdDmaSrc0 (n : Nat) : Statement (.rdDmaSrc0 n) :=
  show (accessCode .read (regOffset (.dmaSrc .ch0))).toNat &&& 0x1FF = 0x080 by decide

theorem wrDmaSrc0 (n : Nat) (v : Word) : Statement (.wrDmaSrc0 n v) :=
  show (accessCode .write (regOffset (.dmaSrc .ch0))).toNat &&& 0x1FF = 0x180 by decide

theorem rdDmaDst0 (n : Nat) : Statement (.rdDmaDst0 n) :=
  show (accessCode .read (regOffset (.dmaDst .ch0))).toNat &&& 0x1FF = 0x084 by decide

theorem wrDmaDst0 (n : Nat) (v : Word) : Statement (.wrDmaDst0 n v) :=
  show (accessCode .write (regOffset (.dmaDst .ch0))).toNat &&& 0x1FF = 0x184 by decide

theorem rdDmaCnt0 (n : Nat) : Statement (.rdDmaCnt0 n) :=
  show (accessCode .read (regOffset (.dmaCnt .ch0))).toNat &&& 0x1FF = 0x088 by decide

theorem wrDmaCnt0 (n : Nat) (v : Word) : Statement (.wrDmaCnt0 n v) :=
  show (accessCode .write (regOffset (.dmaCnt .ch0))).toNat &&& 0x1FF = 0x188 by decide

theorem rdDmaCtrl0 (n : Nat) : Statement (.rdDmaCtrl0 n) :=
  show (accessCode .read (regOffset (.dmaCtrl .ch0))).toNat &&& 0x1FF = 0x08C by decide

theorem wrDmaCtrl0 (n : Nat) (v : Word) : Statement (.wrDmaCtrl0 n v) :=
  show (accessCode .write (regOffset (.dmaCtrl .ch0))).toNat &&& 0x1FF = 0x18C by decide

theorem rdDmaFlags0 (n : Nat) : Statement (.rdDmaFlags0 n) :=
  show (accessCode .read (regOffset (.dmaFlags .ch0))).toNat &&& 0x1FF = 0x090 by decide

theorem wrDmaFlags0 (n : Nat) (v : Word) : Statement (.wrDmaFlags0 n v) :=
  show (accessCode .write (regOffset (.dmaFlags .ch0))).toNat &&& 0x1FF = 0x190 by decide

theorem rdDmaSrc1 (n : Nat) : Statement (.rdDmaSrc1 n) :=
  show (accessCode .read (regOffset (.dmaSrc .ch1))).toNat &&& 0x1FF = 0x0A0 by decide

theorem wrDmaSrc1 (n : Nat) (v : Word) : Statement (.wrDmaSrc1 n v) :=
  show (accessCode .write (regOffset (.dmaSrc .ch1))).toNat &&& 0x1FF = 0x1A0 by decide

theorem rdDmaDst1 (n : Nat) : Statement (.rdDmaDst1 n) :=
  show (accessCode .read (regOffset (.dmaDst .ch1))).toNat &&& 0x1FF = 0x0A4 by decide

theorem wrDmaDst1 (n : Nat) (v : Word) : Statement (.wrDmaDst1 n v) :=
  show (accessCode .write (regOffset (.dmaDst .ch1))).toNat &&& 0x1FF = 0x1A4 by decide

theorem rdDmaCnt1 (n : Nat) : Statement (.rdDmaCnt1 n) :=
  show (accessCode .read (regOffset (.dmaCnt .ch1))).toNat &&& 0x1FF = 0x0A8 by decide

theorem wrDmaCnt1 (n : Nat) (v : Word) : Statement (.wrDmaCnt1 n v) :=
  show (accessCode .write (regOffset (.dmaCnt .ch1))).toNat &&& 0x1FF = 0x1A8 by decide

theorem rdDmaCtrl1 (n : Nat) : Statement (.rdDmaCtrl1 n) :=
  show (accessCode .read (regOffset (.dmaCtrl .ch1))).toNat &&& 0x1FF = 0x0AC by decide

theorem wrDmaCtrl1 (n : Nat) (v : Word) : Statement (.wrDmaCtrl1 n v) :=
  show (accessCode .write (regOffset (.dmaCtrl .ch1))).toNat &&& 0x1FF = 0x1AC by decide

theorem rdDmaFlags1 (n : Nat) : Statement (.rdDmaFlags1 n) :=
  show (accessCode .read (regOffset (.dmaFlags .ch1))).toNat &&& 0x1FF = 0x0B0 by decide

theorem wrDmaFlags1 (n : Nat) (v : Word) : Statement (.wrDmaFlags1 n v) :=
  show (accessCode .write (regOffset (.dmaFlags .ch1))).toNat &&& 0x1FF = 0x1B0 by decide

theorem rdDmaIrq (n : Nat) : Statement (.rdDmaIrq n) :=
  show (accessCode .read (regOffset .dmaIrq)).toNat &&& 0x1FF = 0x0C0 by decide

theorem wrDmaIrq (n : Nat) (v : Word) : Statement (.wrDmaIrq n v) :=
  show (accessCode .write (regOffset .dmaIrq)).toNat &&& 0x1FF = 0x1C0 by decide

theorem rdb (x : Word) (y : Word) : Statement (.rdb x y) := 
  show mkDesc 0x01 0 0 0 &&& BitVec.ofNat 32 0xFFFFFFFF = BitVec.ofNat 32 0x01000000 by decide

theorem txb (b : Byte) (x : Word) (y : Word) : Statement (.txb b x y) := 
  show mkDesc 0x02 0 b 0 &&& BitVec.ofNat 32 0xFFFF00FF = BitVec.ofNat 32 0x02000000 from
    masked_desc 0x02 0 b 0 0xFF 0 0xFF (by decide) (by rw [show b &&& 0 = 0 from BitVec.and_zero]; decide)

theorem txp (n : Byte) (x : Word) (y : Word) : Statement (.txp n x y) := 
  show mkDesc 0x03 0 0 n &&& BitVec.ofNat 32 0xFFFFFF00 = BitVec.ofNat 32 0x03000000 from
    masked_desc 0x03 0 0 n 0xFF 0xFF 0 (by decide) (by rw [show n &&& 0 = 0 from BitVec.and_zero]; decide)

theorem txd (n : Byte) (x : Word) (y : Word) : Statement (.txd n x y) := 
  show mkDesc 0x04 0 0 n &&& BitVec.ofNat 32 0xFFFFFF00 = BitVec.ofNat 32 0x04000000 from
    masked_desc 0x04 0 0 n 0xFF 0xFF 0 (by decide) (by rw [show n &&& 0 = 0 from BitVec.and_zero]; decide)

theorem scs (l : Bool) (x : Word) (y : Word) : Statement (.scs l x y) := by
  cases l
  · exact (show mkDesc 0x05 (levelField false) 0 0 &&& BitVec.ofNat 32 0xFFFEFFFF = BitVec.ofNat 32 0x05000000 by decide)
  · exact (show mkDesc 0x05 (levelField true) 0 0 &&& BitVec.ofNat 32 0xFFFEFFFF = BitVec.ofNat 32 0x05000000 by decide)

theorem pulse (x : Word) (y : Word) : Statement (.pulse x y) := 
  show mkDesc 0x10 0 0 0 &&& BitVec.ofNat 32 0xFFFFFFFF = BitVec.ofNat 32 0x10000000 by decide

theorem wreg (a : Byte) (b : Byte) (x : Word) (y : Word) : Statement (.wreg a b x y) := 
  show mkDesc 0x20 a b 0 &&& BitVec.ofNat 32 0xFF0000FF = BitVec.ofNat 32 0x20000000 from
    masked_desc 0x20 a b 0 0 0 0xFF (by decide) (by rw [show a &&& 0 = 0 from BitVec.and_zero, show b &&& 0 = 0 from BitVec.and_zero]; decide)

theorem waddr (a : Byte) (n : Byte) (x : Word) (y : Word) : Statement (.waddr a n x y) := 
  show mkDesc 0x21 a 0 n &&& BitVec.ofNat 32 0xFF00FF00 = BitVec.ofNat 32 0x21000000 from
    masked_desc 0x21 a 0 n 0 0xFF 0 (by decide) (by rw [show a &&& 0 = 0 from BitVec.and_zero, show n &&& 0 = 0 from BitVec.and_zero]; decide)

theorem cmd (b : Byte) (x : Word) (y : Word) : Statement (.cmd b x y) := 
  show mkDesc 0x22 0 b 0 &&& BitVec.ofNat 32 0xFFFF00FF = BitVec.ofNat 32 0x22000000 from
    masked_desc 0x22 0 b 0 0xFF 0 0xFF (by decide) (by rw [show b &&& 0 = 0 from BitVec.and_zero]; decide)

theorem rstat (x : Word) (y : Word) : Statement (.rstat x y) := 
  show mkDesc 0x23 0 0 0 &&& BitVec.ofNat 32 0xFFFFFFFF = BitVec.ofNat 32 0x23000000 by decide

theorem send (n : Byte) (x : Word) (y : Word) : Statement (.send n x y) := 
  show mkDesc 0x24 0 0 n &&& BitVec.ofNat 32 0xFFFFFF00 = BitVec.ofNat 32 0x24000000 from
    masked_desc 0x24 0 0 n 0xFF 0xFF 0 (by decide) (by rw [show n &&& 0 = 0 from BitVec.and_zero]; decide)

theorem init (x : Word) (y : Word) : Statement (.init x y) := 
  show mkDesc 0x25 0 0 0 &&& BitVec.ofNat 32 0xFFFFFFFF = BitVec.ofNat 32 0x25000000 by decide

theorem wRegister (reg : BitVec 5) : Statement (.wRegister reg) :=
  (by decide : ∀ reg, wRegisterByte reg &&& BitVec.ofNat 8 0xE0 = BitVec.ofNat 8 0x20) reg

theorem wTxPayload : Statement .wTxPayload :=
  show BitVec.ofNat 8 0xA0 &&& BitVec.ofNat 8 0xFF = BitVec.ofNat 8 0xA0 by decide

theorem flushTx : Statement .flushTx :=
  show BitVec.ofNat 8 0xE1 &&& BitVec.ofNat 8 0xFF = BitVec.ofNat 8 0xE1 by decide

theorem flushRx : Statement .flushRx :=
  show BitVec.ofNat 8 0xE2 &&& BitVec.ofNat 8 0xFF = BitVec.ofNat 8 0xE2 by decide

end Sys2Proof.Laws.EncodingMatchesRow
end

