-- ==== Sys2Proof/Tests/Slice0.lean ====
section
/-! SUPPORT. Small checks of the model against the spec: words of every constructor, ill-formed terms refused, single steps with the results of 95_test_vectors.md, and for every statement with hypotheses a state that meets them. -/

namespace Sys2Proof.Tests

open Sys2Proof.Machine Sys2Proof.Safety

/-! ### Builders -/

/-- The launch of 95_test_vectors.md section 0, every exchange returning 0x0E. -/
def base : State :=
  State.launch { Params.vectors with timeoutModel := .never, rxPace := true } [] [[]] true
    ⟨[], [0x0E, 0x0E], [false], 0⟩

/-- The same launch with errors returned to the task. -/
def baseReport : State := { base with par := { base.par with errorPolicy := .report } }

/-- Task 0 about to execute `inv`. -/
def about (inv : Invocation) (s : State) : State := { s with tasks := [TaskState.launch [inv]] }

/-- Task 0 at a step of its operation. -/
def inStep (l : Label) (c : Locals) (ps : List Phase) (s : State) : State :=
  { s with
    active := some 0
    tasks := [{ TaskState.launch [] with ctx := ⟨some ⟨l, c⟩, ps, some (.op 0 0 0)⟩ }] }

/-- What holds of the state an instruction leaves. -/
def leaves (i : Instr) (s : State) (p : State → Bool) : Bool :=
  match exec i s with
  | .next t => p t
  | _ => false

/-- What holds of the state the named agents leave. -/
def steps (as : List Agent) (s : State) (p : State → Bool) : Bool :=
  match runs as s with
  | .next t => p t
  | _ => false

/-- The instruction's last event is a register read of this value. -/
def reads (i : Instr) (s : State) (v : Word) : Bool :=
  leaves i s fun t => match t.hist.getLast? with
    | some (.regAcc _ _ _ .read w) => w == v
    | _ => false

/-- The instruction's last event is a halt with this outcome. -/
def halts (i : Instr) (s : State) (e : Abnormal) : Bool := leaves i s fun t => t.halted == some e

/-! ### Words of every constructor (30_encoding.md R303, R312, R320) -/

theorem test_words_spi :
    decodeTableWord 9 0x000 = some (.rdSpiDr 4) ∧ decodeTableWord 9 0x100 = some (.wrSpiDr 4 0) ∧
    decodeTableWord 9 0x004 = some (.rdSpiSr 4) ∧ decodeTableWord 9 0x104 = some (.wrSpiSr 4 0) ∧
    decodeTableWord 9 0x008 = some (.rdSpiCr 4) ∧ decodeTableWord 9 0x108 = some (.wrSpiCr 4 0) := by decide

theorem test_words_lines :
    decodeTableWord 9 0x010 = some (.rdCsSet 4) ∧ decodeTableWord 9 0x110 = some (.wrCsSet 4 0) ∧
    decodeTableWord 9 0x014 = some (.rdCsClr 4) ∧ decodeTableWord 9 0x114 = some (.wrCsClr 4 0) ∧
    decodeTableWord 9 0x018 = some (.rdCsState 4) ∧ decodeTableWord 9 0x118 = none ∧
    decodeTableWord 9 0x020 = some (.rdCeSet 4) ∧ decodeTableWord 9 0x120 = some (.wrCeSet 4 0) ∧
    decodeTableWord 9 0x024 = some (.rdCeClr 4) ∧ decodeTableWord 9 0x124 = some (.wrCeClr 4 0) ∧
    decodeTableWord 9 0x028 = some (.rdCeState 4) ∧ decodeTableWord 9 0x128 = none ∧
    decodeTableWord 9 0x02C = some (.rdCeCfg 4) ∧ decodeTableWord 9 0x12C = some (.wrCeCfg 4 0) := by decide

theorem test_words_irq_timer :
    decodeTableWord 9 0x030 = some (.rdIrqCfg 4) ∧ decodeTableWord 9 0x130 = some (.wrIrqCfg 4 0) ∧
    decodeTableWord 9 0x034 = some (.rdIrqPend 4) ∧ decodeTableWord 9 0x134 = some (.wrIrqPend 4 0) ∧
    decodeTableWord 9 0x040 = some (.rdTmrCtrl 4) ∧ decodeTableWord 9 0x140 = some (.wrTmrCtrl 4 0) ∧
    decodeTableWord 9 0x044 = some (.rdTmrLoad 4) ∧ decodeTableWord 9 0x144 = some (.wrTmrLoad 4 0) ∧
    decodeTableWord 9 0x048 = some (.rdTmrCount 4) ∧ decodeTableWord 9 0x148 = none ∧
    decodeTableWord 9 0x04C = some (.rdTmrIer 4) ∧ decodeTableWord 9 0x14C = some (.wrTmrIer 4 0) ∧
    decodeTableWord 9 0x050 = some (.rdTmrSr 4) ∧ decodeTableWord 9 0x150 = some (.wrTmrSr 4 0) := by decide

theorem test_words_dma0 :
    decodeTableWord 9 0x080 = some (.rdDmaSrc0 4) ∧ decodeTableWord 9 0x180 = some (.wrDmaSrc0 4 0) ∧
    decodeTableWord 9 0x084 = some (.rdDmaDst0 4) ∧ decodeTableWord 9 0x184 = some (.wrDmaDst0 4 0) ∧
    decodeTableWord 9 0x088 = some (.rdDmaCnt0 4) ∧ decodeTableWord 9 0x188 = some (.wrDmaCnt0 4 0) ∧
    decodeTableWord 9 0x08C = some (.rdDmaCtrl0 4) ∧ decodeTableWord 9 0x18C = some (.wrDmaCtrl0 4 0) ∧
    decodeTableWord 9 0x090 = some (.rdDmaFlags0 4) ∧ decodeTableWord 9 0x190 = some (.wrDmaFlags0 4 0) := by decide

theorem test_words_dma1 :
    decodeTableWord 9 0x0A0 = some (.rdDmaSrc1 4) ∧ decodeTableWord 9 0x1A0 = some (.wrDmaSrc1 4 0) ∧
    decodeTableWord 9 0x0A4 = some (.rdDmaDst1 4) ∧ decodeTableWord 9 0x1A4 = some (.wrDmaDst1 4 0) ∧
    decodeTableWord 9 0x0A8 = some (.rdDmaCnt1 4) ∧ decodeTableWord 9 0x1A8 = some (.wrDmaCnt1 4 0) ∧
    decodeTableWord 9 0x0AC = some (.rdDmaCtrl1 4) ∧ decodeTableWord 9 0x1AC = some (.wrDmaCtrl1 4 0) ∧
    decodeTableWord 9 0x0B0 = some (.rdDmaFlags1 4) ∧ decodeTableWord 9 0x1B0 = some (.wrDmaFlags1 4 0) ∧
    decodeTableWord 9 0x0C0 = some (.rdDmaIrq 4) ∧ decodeTableWord 9 0x1C0 = some (.wrDmaIrq 4 0) := by decide

theorem test_words_descriptors :
    decodeTableWord 32 0x01000000 = some (.rdb 0 0) ∧ decodeTableWord 32 0x0200E100 = some (.txb 0xE1 0 0) ∧
    decodeTableWord 32 0x03000002 = some (.txp 2 0 0) ∧ decodeTableWord 32 0x04000005 = some (.txd 5 0 0) ∧
    decodeTableWord 32 0x05010000 = some (.scs true 0 0) ∧ decodeTableWord 32 0x10000000 = some (.pulse 0 0) ∧
    decodeTableWord 32 0x20053200 = some (.wreg 0x05 0x32 0 0) ∧
    decodeTableWord 32 0x21100005 = some (.waddr 0x10 5 0 0) ∧
    decodeTableWord 32 0x2200E200 = some (.cmd 0xE2 0 0) ∧ decodeTableWord 32 0x23000000 = some (.rstat 0 0) ∧
    decodeTableWord 32 0x24000004 = some (.send 4 0 0) ∧ decodeTableWord 32 0x25000000 = some (.init 0 0) := by decide

theorem test_words_commands :
    decodeTableWord 8 0x25 = some (.wRegister 5) ∧ decodeTableWord 8 0x3F = some (.wRegister 31) ∧
    decodeTableWord 8 0xA0 = some .wTxPayload ∧ decodeTableWord 8 0xE1 = some .flushTx ∧
    decodeTableWord 8 0xE2 = some .flushRx ∧ decodeTableWord 8 0x40 = none := by decide

/-- Fields bit by bit: W | OFF; OPC | A | B | LEN; 001 | register. -/
theorem test_words_bit_by_bit :
    decode (.rac 0b101001100#9 4 0xFF#32) = .ok (.wrTmrIer 4 0xFF#32) ∧
    decode (.desc 0b00100001000010100000000000000011#32 0x20000000#32 0#32) = .ok (.waddr 0x0A#8 3#8 0x20000000#32 0#32) ∧
    decode (.desc 0b00000101000000000000000000000000#32 1#32 2#32) = .ok (.scs false 1#32 2#32) ∧
    decode (.fcb 0b00110001#8) = .ok (.wRegister 0b10001#5) := by decide

/-- The descriptor is refused as illegal. -/
def illegal (d : Word) : Bool :=
  match decode (.desc d 0 0) with
  | .error (.illegalDescriptor e) => e == d
  | _ => false

/-- V1-2, V1-4, V1-6, V1-7, V1-8, V1-10, V1-13, V1-15: words of no row. -/
theorem test_words_refused :
    ([0x01000001, 0x020000E1, 0x05020000, 0x00000000, 0x06000000, 0x11000000, 0x26000000, 0xFF000000,
      0x10000100, 0x21100106, 0x23000001].all illegal) = true ∧
    decode (.rac 0x060#9 4 0) = .error (.unassignedAccess 0x060#9) := by decide

/-! ### Ill-formed terms -/

/-- A two-byte access is ill-formed in each of the 53 rows that have a size. -/
theorem test_size_two_ill_formed :
    ((accessRows 2 0).all fun p => !wellFormed p.2) = true ∧ (accessRows 2 0).length = 53 := by decide

theorem test_sizes_well_formed :
    wellFormed (.rdSpiDr 1) = true ∧ wellFormed (.wrSpiDr 4 0) = true ∧ wellFormed (.rdSpiDr 0) = false ∧
      wellFormed (.wrDmaIrq 3 0) = false ∧ wellFormed (.send 255 0 0) = true := by decide

/-- V2-14 and V15-4: the machine refuses the sizes by a fault of the block. -/
theorem test_size_faults :
    halts (.rdSpiDr 2) base (.badRegisterAccess 0x00) = true ∧
      halts (.rdSpiSr 1) base (.badRegisterAccess 0x04) = true := by decide

/-! ### SPI data path (95_test_vectors.md section 2.2) -/

/-- A byte in the holding buffer. -/
def holding : State := { base with spi := { base.spi with txbuf := 0xA0, txe := false } }
/-- A byte being shifted. -/
def shifting : State := { base with spi := { base.spi with txbuf := 0xA0, shreg := 0xA0, bsy := true } }
/-- A byte received. -/
def received : State := { base with spi := { base.spi with rxbuf := some 0x0E, rxne := true } }
/-- V2-8's start: a byte received and another being shifted. -/
def overrunning : State := { received with spi := { received.spi with shreg := 0x55, bsy := true } }

theorem test_rd_spi_sr : reads (.rdSpiSr 4) base 0x2 = true ∧ reads (.rdSpiSr 4) shifting 0x6 = true := by decide
theorem test_rd_spi_dr : reads (.rdSpiDr 4) received 0x0E = true ∧
    leaves (.rdSpiDr 1) received (fun t => !t.spi.rxne && t.spi.rxbuf == some 0x0E) = true ∧
    halts (.rdSpiDr 1) base (.unwrittenRead 0x00) = true := by decide
theorem test_wr_spi_dr : leaves (.wrSpiDr 4 0x12345678) base (fun t => t.spi.txbuf == 0x78 && !t.spi.txe) = true ∧
    halts (.wrSpiDr 1 0x01) holding (.txWriteWhileFull 0x01) = true := by decide
theorem test_wr_spi_sr :
    leaves (.wrSpiSr 4 0x8) { received with spi := { received.spi with ovr := true } }
      (fun t => !t.spi.ovr && t.spi.rxne) = true ∧
    leaves (.wrSpiSr 4 0x7) { received with spi := { received.spi with ovr := true } } (fun t => t.spi.ovr) = true := by
  decide
theorem test_wr_spi_cr : leaves (.wrSpiCr 4 0x3) base (fun t => t.spi.txdmaen && t.spi.rxdmaen) = true ∧
    leaves (.wrSpiCr 4 0xFFFFFFFC) base (fun t => !t.spi.txdmaen && !t.spi.rxdmaen) = true := by decide
theorem test_rd_spi_cr :
    reads (.rdSpiCr 4) { base with spi := { base.spi with rxdmaen := true } } 0x2 = true := by decide
theorem test_start : steps [.shift] holding (fun t => t.spi.shreg == 0xA0 && t.spi.txe && t.spi.bsy) = true := by decide
theorem test_finish : steps [.shift] shifting (fun t =>
    t.spi.rxbuf == some 0x0E && t.spi.rxne && !t.spi.bsy && t.hist == [.exchange 0xA0 0x0E false]) = true := by decide
theorem test_finish_overrun : steps [.shift] overrunning (fun t =>
    t.spi.ovr && t.spi.rxbuf == some 0x0E && t.hist == [.exchange 0x55 0x0E false]) = true := by decide
/-- The command bytes as instructions: the byte goes out (log 10). -/
theorem test_command_bytes :
    leaves (.wRegister 5) shifting (fun t => t.hist == [.exchange 0x25 0x0E false]) = true ∧
    leaves .wTxPayload shifting (fun t => t.hist == [.exchange 0xA0 0x0E false]) = true ∧
    leaves .flushTx shifting (fun t => t.hist == [.exchange 0xE1 0x0E false]) = true ∧
    leaves .flushRx shifting (fun t => t.hist == [.exchange 0xE2 0x0E false]) = true := by decide

/-! ### Chip select and chip enable (section 2.3) -/

theorem test_wr_cs_set : leaves (.wrCsSet 4 1) base (fun t => t.cs.asserted &&
    t.hist == [.regAcc (.task 0) 0x10 4 .write 1, .csChange true]) = true := by decide
theorem test_wr_cs_clr : leaves (.wrCsClr 4 1) { base with cs := ⟨true⟩ } (fun t => !t.cs.asserted) = true := by decide
theorem test_rd_cs : reads (.rdCsState 4) { base with cs := ⟨true⟩ } 1 = true ∧ reads (.rdCsSet 4) base 0 = true ∧
    reads (.rdCsClr 4) base 0 = true := by decide
theorem test_wr_ce_set : leaves (.wrCeSet 4 1) base (fun t => t.ce.level && ceLine t == none) = true := by decide
theorem test_wr_ce_clr : leaves (.wrCeClr 4 1) base (fun t =>
    t.hist == [.regAcc (.task 0) 0x24 4 .write 1]) = true := by decide
theorem test_wr_ce_cfg : leaves (.wrCeCfg 4 1) base (fun t => t.ce.oe && ceLine t == some false) = true := by decide
theorem test_rd_ce : reads (.rdCeState 4) { base with ce := ⟨true, false⟩ } 1 = true ∧
    reads (.rdCeCfg 4) { base with ce := ⟨false, true⟩ } 1 = true ∧ reads (.rdCeSet 4) base 0 = true ∧
    reads (.rdCeClr 4) base 0 = true := by decide

/-! ### Timer (section 2.4) -/

/-- A timer with this count, running. -/
def ticking (count load : Nat) : State := { base with tmr := { base.tmr with count := count, load := load, running := true } }

theorem test_wr_tmr_ctrl :
    leaves (.wrTmrCtrl 4 3) (ticking 7 0) (fun t => t.tmr.count == 0 && !t.tmr.running) = true ∧
    leaves (.wrTmrCtrl 4 2) (ticking 7 0) (fun t => t.tmr.count == 7 && !t.tmr.running) = true := by decide
theorem test_rd_tmr_ctrl : reads (.rdTmrCtrl 4) (ticking 7 0) 1 = true := by decide
theorem test_wr_tmr_load : leaves (.wrTmrLoad 4 0x00010040) base (fun t => t.tmr.load == 0x40) = true := by decide
theorem test_rd_tmr : reads (.rdTmrLoad 4) (ticking 7 9) 9 = true ∧ reads (.rdTmrCount 4) (ticking 7 9) 7 = true := by
  decide
theorem test_tick_wrap : steps [.timer] (ticking 0xFFFF 0) (fun t =>
    t.tmr.count == 0 && t.tmr.ovf && t.tmr.mtch && t.hist == [.tick 0]) = true := by decide
theorem test_tick_match : steps [.timer] (ticking 2 3) (fun t =>
    t.tmr.count == 3 && !t.tmr.ovf && t.tmr.mtch) = true := by decide
/-- V4-12 and V4-13. -/
theorem test_tmr_flags :
    leaves (.wrTmrSr 4 1) { base with tmr := ⟨0, false, 0, false, true, true⟩ } (fun t =>
      !t.tmr.ovf && t.tmr.mtch) = true ∧
    reads (.rdTmrSr 4) { base with tmr := ⟨0, false, 0, false, false, true⟩ } 2 = true ∧
    leaves (.wrTmrIer 4 1) { base with tmr := ⟨0, false, 0, false, true, false⟩ } timerLine = true ∧
    reads (.rdTmrIer 4) { base with tmr := ⟨0, false, 0, true, false, false⟩ } 1 = true := by decide
theorem test_ovf_handler :
    steps [.ovfHandler] { base with tmr := ⟨0, false, 0, true, true, true⟩ } (fun t =>
      !t.tmr.ovf && t.tmr.mtch) = true := by decide

/-! ### DMA (section 2.5) -/

/-- V5-3's channel 1, and V5-7's. -/
def chan1 : State :=
  { received with
    spi := { received.spi with rxdmaen := true }
    dma1 := ⟨0x40013000, 0x20000000, 2, true, false, true, true, false, false⟩ }

/-- V5-10's channel 0. -/
def chan0Bad : State :=
  { base with
    spi := { base.spi with txdmaen := true }
    dma0 := ⟨0x30000000, 0x40013000, 1, true, false, false, false, false, false⟩ }

theorem test_wr_dma_ctrl0 : leaves (.wrDmaCtrl0 4 0x3) base (fun t =>
    t.dma0.done && !t.dma0.en && t.dma0.sinc && !t.dmairq) = true := by decide
theorem test_wr_dma_ctrl1 : leaves (.wrDmaCtrl1 4 0x9) base (fun t =>
    t.dma1.done && !t.dma1.en && t.dmairq) = true ∧
    halts (.wrDmaCtrl1 4 0x1) chan1 (.badRegisterAccess 0xAC) = true := by decide
theorem test_wr_dma_ctrl1_stop : leaves (.wrDmaCtrl1 4 0xC) chan1 (fun t =>
    !t.dma1.en && !t.dma1.done && t.dma1.cnt == 2) = true := by decide
theorem test_wr_dma_running : halts (.wrDmaSrc1 4 0) chan1 (.badRegisterAccess 0xA0) = true ∧
    halts (.wrDmaDst1 4 0) chan1 (.badRegisterAccess 0xA4) = true ∧
    halts (.wrDmaCnt1 4 0) chan1 (.badRegisterAccess 0xA8) = true := by decide
theorem test_wr_dma_config :
    leaves (.wrDmaSrc0 4 5) base (fun t => t.dma0.src == 5) = true ∧
    leaves (.wrDmaDst0 4 6) base (fun t => t.dma0.dst == 6) = true ∧
    leaves (.wrDmaCnt0 4 0x12345) base (fun t => t.dma0.cnt == 0x2345) = true ∧
    leaves (.wrDmaSrc1 4 5) base (fun t => t.dma1.src == 5) = true ∧
    leaves (.wrDmaDst1 4 6) base (fun t => t.dma1.dst == 6) = true ∧
    leaves (.wrDmaCnt1 4 7) base (fun t => t.dma1.cnt == 7) = true := by decide
theorem test_rd_dma0 : reads (.rdDmaSrc0 4) chan0Bad 0x30000000 = true ∧
    reads (.rdDmaDst0 4) chan0Bad 0x40013000 = true ∧ reads (.rdDmaCnt0 4) chan0Bad 1 = true ∧
    reads (.rdDmaCtrl0 4) chan0Bad 1 = true ∧ reads (.rdDmaFlags0 4) chan0Bad 0 = true := by decide
theorem test_rd_dma1 : reads (.rdDmaSrc1 4) chan1 0x40013000 = true ∧
    reads (.rdDmaDst1 4) chan1 0x20000000 = true ∧ reads (.rdDmaCnt1 4) chan1 2 = true ∧
    reads (.rdDmaCtrl1 4) chan1 0xD = true ∧ reads (.rdDmaFlags1 4) chan1 0 = true := by decide
theorem test_dma_flags :
    leaves (.wrDmaFlags0 4 0x3) { base with dma0 := { base.dma0 with done := true, err := true } } (fun t =>
      !t.dma0.done && !t.dma0.err) = true ∧
    leaves (.wrDmaFlags1 4 0x1) { base with dma1 := { base.dma1 with done := true, err := true } } (fun t =>
      !t.dma1.done && t.dma1.err) = true := by decide
theorem test_dma_irq : leaves (.wrDmaIrq 4 1) { base with dmairq := true } (fun t => !t.dmairq) = true ∧
    reads (.rdDmaIrq 4) { base with dmairq := true } 1 = true := by decide
/-- V5-7. -/
theorem test_transfer : steps [.dma .ch1] chan1 (fun t =>
    t.mem == [(0x20000000, 0x0E)] && !t.spi.rxne && t.dma1.dst == 0x20000001 && t.dma1.cnt == 1) = true := by decide
/-- V5-9. -/
theorem test_transfer_last : steps [.dma .ch1] { chan1 with dma1 := { chan1.dma1 with cnt := 1 } } (fun t =>
    t.dma1.cnt == 0 && t.dma1.done && !t.dma1.en && t.dmairq) = true := by decide
/-- V5-10 and V5-11. -/
theorem test_transfer_errors :
    steps [.dma .ch0] chan0Bad (fun t =>
      t.dma0 == { chan0Bad.dma0 with err := true, en := false } && !t.dmairq && t.spi.txe) = true ∧
    steps [.dma .ch1] { chan1 with dma1 := { chan1.dma1 with src := 0x40013004 } } (fun t =>
      t.dma1.err && !t.dma1.en && t.spi.rxne) = true := by decide

/-! ### Operations: issue and single steps (sections 2.1, 2.6-2.13) -/

/-- The operation's next step. -/
def nextStep (s : State) : Option Label := (s.taskAt 0).ctx.cur.map (·.label)

theorem test_issue_rdb : leaves (.rdb 0 0) base (fun t =>
    nextStep t == some (.rdb .r0) && t.active == some 0 && t.hist == [.issue 0 0x01000000 0 0]) = true := by decide
theorem test_issue_txb : leaves (.txb 0xE1 0 0) base (fun t =>
    nextStep t == some (.txb .b0) && t.hist == [.issue 0 0x0200E100 0 0]) = true := by decide
theorem test_issue_txp : leaves (.txp 2 1 2) base (fun t =>
    nextStep t == some (.txp .p0) && t.hist == [.issue 0 0x03000002 1 2]) = true := by decide
theorem test_issue_txd : leaves (.txd 5 1 2) base (fun t =>
    nextStep t == some (.txd .d0) && t.hist == [.issue 0 0x04000005 1 2]) = true := by decide
theorem test_issue_scs : leaves (.scs true 0 0) base (fun t =>
    nextStep t == some .scs && t.hist == [.issue 0 0x05010000 0 0]) = true := by decide
theorem test_issue_pulse : leaves (.pulse 0 0) base (fun t => nextStep t == some (.pulse .tp0)) = true := by decide
/-- V10-1, V10-4. -/
theorem test_issue_wreg : leaves (.wreg 0x05 0x32 0 0) base (fun t =>
      ((t.taskAt 0).ctx.cur.map (·.loc.src)) == some (.lit [0x25, 0x32]) &&
        t.hist == [.issue 0 0x20053200 0 0]) = true ∧
    halts (.wreg 0x20 0 0 0) base (.invalidRegister 0x20) = true := by decide
/-- V1-12, V11-3. -/
theorem test_issue_waddr :
    leaves (.waddr 0x20 6 0 0) baseReport (fun t => (t.taskAt 0).result == some (0x02, 0x00)) = true ∧
    leaves (.waddr 0x0A 0 0 0) base (fun t =>
      ((t.taskAt 0).ctx.cur.map (·.loc.src)) == some (.lit [0x2A])) = true := by decide
theorem test_issue_cmd : leaves (.cmd 0xE2 0 0) base (fun t =>
    ((t.taskAt 0).ctx.cur.map (·.loc.byte)) == some 0xE2 && t.hist == [.issue 0 0x2200E200 0 0]) = true := by decide
theorem test_issue_rstat : leaves (.rstat 0 0) base (fun t =>
    ((t.taskAt 0).ctx.cur.map (·.loc.src)) == some (.lit [0x27, 0x70])) = true := by decide
/-- V12-3, V12-4, V12-5. -/
theorem test_issue_send : halts (.send 31 0 0) base (.payloadTooLarge 31) = true ∧
    halts (.send 0 0 0) base (.invalidLength 0) = true ∧
    leaves (.send 30 0 0) base (fun t =>
      ((t.taskAt 0).ctx.cur.map (·.loc.src)) == some (.lit [0x31, 0x1E])) = true := by decide
theorem test_issue_init : leaves (.init 0 0) base (fun t => nextStep t == some (.initIO .i0)) = true := by decide
/-- V1-17, V1-16. -/
theorem test_issue_serialized :
    leaves (.txd 3 0 0) { baseReport with active := some 1, owner := some 1 } (fun t =>
      (t.taskAt 0).result == some (0x03, 0x00)) = true ∧
    leaves (.txd 3 0 0) { baseReport with active := some 1 } (fun t =>
      (t.taskAt 0).result == some (0x09, 0x00)) = true := by decide
/-- V1-18. -/
theorem test_illegal_first : steps [.task 0] { about (.op 0x07000000 0 0) base with active := some 1 } (fun t =>
    t.halted == some (.illegalCommand 0x07000000)) = true := by decide
/-- V15-1, V15-3. -/
theorem test_direct_access :
    steps [.task 0] { about (.acc 0x04 4 .read 0) base with active := some 1 } (fun t =>
      t.halted == some (.accessNotSerialized 1)) = true ∧
    steps [.task 0] (about (.acc 0x60 4 .read 0) base) (fun t =>
      t.halted == some (.badRegisterAccess 0x60)) = true := by decide
/-- V4-15 at TPB = 2048, V7-3. -/
theorem test_txp_checks :
    steps [.task 0] (inStep (.txp .p0) { n := 32 } [] { base with par := { base.par with timePerByte := 2048 } })
      (fun t => t.halted == some (.timerTargetOutOfRange 65536)) = true ∧
    steps [.task 0] (inStep (.txp .p0) { n := 0 } [] baseReport)
      (fun t => (t.taskAt 0).result == some (0x06, 0x00) && t.active == none) = true := by decide
/-- V8-6: the notification value, and the mismatch. -/
theorem test_txd_mismatch :
    steps [.task 0] (inStep (.txd .d23) { n := 2, value := 2 } [] baseReport)
      (fun t => (t.taskAt 0).result == some (0x05, 0x00)) = true := by decide
/-- V11-6: MemoryFault in a copy phase. -/
theorem test_copy_fault :
    steps [.task 0] (inStep (.copy 0) { n := 5, dst := 0x20000F01, src := .mem 0x30000000 } [] base)
      (fun t => t.halted == some (.memoryFault 0x30000000) &&
        t.hist == [.halt (.memoryFault 0x30000000) 0 (some (.step (.copy 0)))]) = true := by decide
/-- R534 with n = 0: after C(0) of the command byte the empty copy ends at once and the DMA phase starts. -/
theorem test_copy_empty_next :
    steps [.task 0] (inStep (.copy 0) { n := 1, dst := 0x20000F00, src := .lit [0x30] }
        [.copy 0x20000F01 (.mem 0x30000000) 0, .base (.transmitDma 1 0x20000F00 0x20000F40)] base)
      (fun t => t.halted.isNone && (t.taskAt 0).ctx.phases == [] &&
        (t.taskAt 0).ctx.cur == some ⟨.txd .d0, { n := 1, tx := 0x20000F00, rx := 0x20000F40 }⟩) = true := by decide

/-! ### Handlers (section 2.14) -/

theorem test_pin_edge :
    steps [.device] { base with irq := ⟨true, true, true, false, true⟩ } (fun t => t.irq.pend && !t.irq.pin) = true ∧
    steps [.device] { base with irq := ⟨false, true, false, false, true⟩ } (fun t => !t.irq.pend) = true := by decide
theorem test_irq_registers : leaves (.wrIrqCfg 4 7) base (fun t => t.irq == ⟨true, true, true, false, true⟩) = true ∧
    reads (.rdIrqCfg 4) { base with irq := ⟨true, false, true, false, true⟩ } 5 = true ∧
    reads (.rdIrqPend 4) { base with irq := ⟨true, true, true, true, false⟩ } 1 = true ∧
    leaves (.wrIrqPend 4 1) { base with irq := ⟨true, true, true, true, false⟩ } (fun t => !t.irq.pend) = true := by decide
theorem test_irq_handler : steps [.irqHandler] { base with irq := ⟨true, true, true, true, false⟩ } (fun t =>
    !t.irq.pend && t.hist == [.regAcc .irqHandler 0x34 4 .write 1, .radioIrq]) = true := by decide
/-- V14-6, V14-7. -/
theorem test_dma_handler :
    steps [.dmaHandler] { base with dmairq := true } (fun t => !t.dmairq && (t.taskAt 0).notify == 0) = true ∧
    steps [.dmaHandler] { base with dmairq := true, owner := some 0 } (fun t =>
      !t.dmairq && (t.taskAt 0).notify == 1 && t.owner == none) = true := by decide

/-! ### Witnesses: states and operands that meet the hypotheses of each statement, clause by clause -/

/-- The step ends in a next state. -/
def goesOn (s : State) : Bool :=
  match step s with
  | .next _ => true
  | _ => false

/-- The step refuses the launch. -/
def refusesLaunch (s : State) : Bool :=
  match step s with
  | .refused .illFormedLaunch => true
  | _ => false

/-- The agent gets the next turn. -/
def next (a : Agent) (s : State) : State := { s with draws := { s.draws with agents := [a] } }

/-- Another task is active. -/
def otherTask : State := { base with active := some 1 }

/-- Channel 0 running from SPI_DR with nothing received, and to SPI_DR with the holding buffer full. -/
def chan0Empty : State :=
  { base with
    spi := { base.spi with txdmaen := true }
    dma0 := ⟨0x40013000, 0x20000000, 1, true, false, false, false, false, false⟩ }
def chan1Full : State :=
  { received with
    spi := { received.spi with rxdmaen := true, txe := false }
    dma1 := ⟨0x20000000, 0x40013000, 2, true, false, true, true, false, false⟩ }

theorem witness_DecodeOfEncode :
    wellFormed (.wrSpiDr 1 0xFF) = true ∧ wellFormed (.rdDmaIrq 4) = true ∧ wellFormed (.send 255 1 2) = true ∧
      wellFormed (.wRegister 31) = true := by decide

theorem witness_EncodeOfDecode :
    decode (.rac 0x1C0#9 4 1) = .ok (.wrDmaIrq 4 1) ∧ decode (.rac 0x004#9 4 7) = .ok (.rdSpiSr 4) ∧
      decode (.desc 0x21100005#32 1 2) = .ok (.waddr 0x10 5 1 2) ∧ decode (.fcb 0x3F#8) = .ok (.wRegister 31) := by
  decide

theorem witness_AccessCodeRows :
    ((accessRows 4 0).all fun p => p.1 != 0x118#9) = true ∧ ((accessRows 1 7).all fun p => p.1 != 0x0FF#9) = true := by
  decide

theorem witness_CommandByteRows :
    (0x20#8 &&& 0xE0#8 = 0x20#8) ∧ (0x3F#8 &&& 0xE0#8 = 0x20#8) ∧ (0x40#8 &&& 0xE0#8 ≠ 0x20#8) ∧
      (0x1F#8).toNat ≤ 0x1F ∧ (0x00#8).toNat ≤ 0x1F := by decide

theorem witness_StepRunsDecodedInstruction_task :
    running (next (.task 0) (about (.op 0x24000004 1 2) base)) ∧
      chosen (next (.task 0) (about (.op 0x24000004 1 2) base)) = .task 0 ∧
      aboutTo 0 (.op 0x24000004 1 2) [] (next (.task 0) (about (.op 0x24000004 1 2) base)) ∧
      decode (invocationWords (.op 0x24000004 1 2)) = .ok (.send 4 1 2) := by
  unfold running aboutTo; decide

theorem witness_StepRunsDecodedInstruction_shift :
    running (next .shift shifting) ∧ chosen (next .shift shifting) = .shift ∧
      finishEnabled (next .shift shifting) = true ∧
      decode (.fcb (next .shift shifting).spi.shreg) = .ok .wTxPayload := by
  unfold running; decide

/-- Each hold, its condition false at a boundary. -/
theorem witness_HoldsWait :
    running base ∧ running holding ∧ running shifting ∧
    (atStep 0 (.rdb .r0) {} [] (inStep (.rdb .r0) {} [] base) ∧ base.spi.rxne = false) ∧
    (atStep 0 (.txb .b0) {} [] (inStep (.txb .b0) {} [] holding) ∧ holding.spi.txe = false) ∧
    (atStep 0 (.txp .p9) { target := 4 } [] (inStep (.txp .p9) { target := 4 } [] (ticking 3 0)) ∧
      (ticking 3 0).tmr.count < 4) ∧
    (atStep 0 (.pulse .tp2) {} [] (inStep (.pulse .tp2) {} [] (ticking 9 0)) ∧ (ticking 9 0).tmr.count < 10) ∧
    (atStep 0 (.txd .d17) {} [] (inStep (.txd .d17) {} [] base) ∧
      ((inStep (.txd .d17) {} [] base).taskAt 0).notify = 0) ∧
    (atStep 0 (.txd .t4) {} [] (inStep (.txd .t4) {} [] shifting) ∧ shifting.spi.bsy = true) := by
  unfold running atStep; decide

theorem witness_RaisingAndHalting :
    0x80#8 ≤ abnormalCode (.txWriteWhileFull 0) ∧ base.par.errorPolicy = .fatal ∧
      baseReport.par.errorPolicy = .report ∧ abnormalCode (.timerTargetOutOfRange 256) < 0x80#8 ∧
      ({ base with halted := some .transactionInProgress } : State).halted = some .transactionInProgress ∧
      launchOk base.par base.tasks.length = true := by decide

theorem witness_RaisingAndHalting_error : ∀ u : Nat, Abnormal.timerTargetOutOfRange 256 ≠ .accessNotSerialized u := by
  intro u h; cases h

theorem witness_IllegalDescriptor :
    (descriptorRows.all fun p => 0x26000000#32 &&& p.1 != p.2) = true ∧
      (descriptorRows.all fun p => 0x01000001#32 &&& p.1 != p.2) = true ∧
      running (about (.op 0x26000000 0 0) base) ∧
      aboutTo 0 (.op 0x26000000 0 0) [] (about (.op 0x26000000 0 0) base) := by
  unfold running aboutTo; decide

theorem witness_IssueBaseOperations : mayIssue base := by unfold mayIssue; decide

theorem witness_IssueFrameOperations :
    mayIssue base ∧ (0x1F#8).toNat ≤ 0x1F ∧ (5#8).toNat ≤ 5 ∧ (0#8).toNat ≤ 5 ∧ 1 ≤ (1#8).toNat ∧
      (30#8).toNat ≤ 30 ∧ base.par.initAddr.length = 5 := by
  unfold mayIssue; decide

theorem witness_IssueChecks :
    mayIssue base ∧ 0x1F < (0x20#8).toNat ∧ 5 < (6#8).toNat ∧ ((5#8).toNat ≤ 5 ∧ 0x1F < (0x20#8).toNat) ∧
      32 ≤ (31#8).toNat + 1 ∧ 32 ≤ (255#8).toNat + 1 := by
  unfold mayIssue; decide

theorem witness_IssueSerialized :
    encode (.txd 3 1 2) = .desc 0x04000003#32 1 2 ∧ encode (.rdb 1 2) = .desc 0x01000000#32 1 2 ∧
      otherTask.halted = none ∧ otherTask.active = some 1 ∧
      ({ otherTask with owner := some 1 } : State).owner ≠ none ∧ otherTask.owner = none := by decide

theorem witness_DirectAccessSerialized :
    otherTask.halted = none ∧ otherTask.active = some 1 ∧ 1 ≠ otherTask.curTask ∧
      encode (.rdSpiSr 4) = .rac 0x004#9 4 0 := by decide

theorem witness_RefusedAccesses :
    running (about (.acc 0x60 4 .read 0) base) ∧ aboutTo 0 (.acc 0x60 4 .read 0) [] (about (.acc 0x60 4 .read 0) base) ∧
      base.active = none := by
  unfold running aboutTo; decide

/-- Each of the four checks. -/
theorem witness_RefusedAccesses_checks :
    accessRefused 0x60 4 .read 0 base ∧ accessRefused 0x04 1 .read 0 base ∧ accessRefused 0x00 2 .write 0 base ∧
      accessRefused 0x48 4 .write 5 base ∧ accessRefused 0xA0 4 .write 0 chan1 ∧
      accessRefused 0xAC 4 .write 0x1 chan1 := by
  unfold accessRefused configuresRunning
  refine ⟨?_, ?_, ?_, ?_, ?_, ?_⟩ <;> decide

/-- Accesses that pass them: a stop of a running channel, a byte of SPI_DR, a stopped channel. -/
theorem witness_RefusedAccesses_passed :
    ¬ accessRefused 0xAC 4 .write 0xC chan1 ∧ ¬ accessRefused 0x00 1 .read 0 base ∧
      ¬ accessRefused 0xA0 4 .write 0 base := by
  unfold accessRefused configuresRunning
  refine ⟨?_, ?_, ?_⟩ <;> decide

/-- For SpiStatusAndControl, IrqInputRegisters, TimerControl, TimerRegisters, DmaFlagsAndRequest, and the
clauses for other sizes of every register statement. -/
theorem witness_mayAccess : mayAccess base ∧ base.par.timerWidth ≤ 32 ∧ mayAccess { base with active := some 0 } ∧ (1 : Nat) ≠ 4 := by
  unfold mayAccess; decide

theorem witness_SpiDataRead :
    mayAccess received ∧ received.spi.rxbuf = some 0x0E ∧ mayAccess base ∧ base.spi.rxbuf = none ∧
      running chan0Empty ∧ dmaEnabled .ch0 chan0Empty = true ∧
      (chan0Empty.dma .ch0).src = chan0Empty.par.blockBase ∧ chan0Empty.spi.rxbuf = none := by
  unfold mayAccess running; decide

theorem witness_SpiDataWrite :
    mayAccess base ∧ base.spi.txe = true ∧ mayAccess holding ∧ holding.spi.txe = false ∧
      running chan1Full ∧ dmaEnabled .ch1 chan1Full = true ∧
      (chan1Full.dma .ch1).dst = chan1Full.par.blockBase ∧ inWindow chan1Full.par (chan1Full.dma .ch1).src = false ∧
      admitted chan1Full.par (chan1Full.dma .ch1).src = true ∧ chan1Full.spi.txe = false := by
  unfold mayAccess running; decide

theorem witness_ChipSelectRegisters :
    mayAccess base ∧ base.cs.asserted = false ∧ (1#32).getLsbD 0 = true ∧ (2#32).getLsbD 0 = false ∧
      mayAccess { base with cs := ⟨true⟩ } ∧ ({ base with cs := ⟨true⟩ } : State).cs.asserted = true := by
  unfold mayAccess; decide

theorem witness_ChipEnableRegisters :
    mayAccess base ∧ base.ce.level = false ∧ base.ce.oe = false ∧ (1#32).getLsbD 0 = true ∧
      mayAccess { base with ce := ⟨true, true⟩ } ∧ ({ base with ce := ⟨true, true⟩ } : State).ce.level = true ∧
      ({ base with ce := ⟨true, true⟩ } : State).ce.oe = true := by
  unfold mayAccess; decide

theorem witness_DmaConfiguration : mayAccess base ∧ base.dma0.en = false ∧ base.dma1.en = false ∧
    mayAccess chan1 ∧ chan1.dma1.en = true ∧ mayAccess chan0Bad ∧ chan0Bad.dma0.en = true := by
  unfold mayAccess; decide

/-- The clauses of a control write: refused, a stop, a configuration, a start, a completion at count 0. -/
theorem witness_DmaControl :
    mayAccess chan1 ∧ chan1.dma1.en = true ∧
      ((0x1#32).getLsbD 1, (0x1#32).getLsbD 2, (0x1#32).getLsbD 3) ≠ (chan1.dma1.sinc, chan1.dma1.dinc, chan1.dma1.ie) ∧
      ((0xC#32).getLsbD 1, (0xC#32).getLsbD 2, (0xC#32).getLsbD 3) = (chan1.dma1.sinc, chan1.dma1.dinc, chan1.dma1.ie) ∧
      base.dma0.en = false ∧ (0xC#32).getLsbD 0 = false ∧ (0xD#32).getLsbD 0 = true ∧ base.dma0.cnt = 0 ∧
      ({ base.dma0 with cnt := 1 } : DmaChan).cnt ≠ 0 := by
  unfold mayAccess; decide

theorem witness_CommandBytesGoOut : shifting.halted = none ∧ shifting.spi.bsy = true ∧ ¬ held shifting := by
  unfold held; decide

theorem witness_ShiftStart : running holding ∧ holding.spi.bsy = false ∧ holding.spi.txe = false ∧
    running base ∧ base.spi.bsy = false ∧ base.spi.txe = true := by
  unfold running; decide

/-- FINISH free to go, and held back by RX_PACE with one byte still to fetch. -/
theorem witness_ShiftFinish : running shifting ∧ shifting.spi.bsy = true ∧ ¬ held shifting ∧
    held { chan1 with spi := { chan1.spi with bsy := true }, dma1 := { chan1.dma1 with cnt := 1 } } ∧ running chan1 := by
  unfold running held; decide

/-- The four pairs of source and destination, and a request that is low. -/
theorem witness_DmaTransfer :
    (running chan1 ∧ memInv chan1 ∧ (chan1.dma .ch1).en = true ∧ (chan1.dma .ch1).cnt.toNat > 0 ∧
      dmaReq .ch1 chan1 = true ∧ (chan1.dma .ch1).src = chan1.par.blockBase ∧ chan1.spi.rxbuf.isSome = true ∧
      inWindow chan1.par (chan1.dma .ch1).dst = false ∧ admitted chan1.par (chan1.dma .ch1).dst = true) ∧
    (dmaReq .ch1 { chan1 with dma1 := { chan1.dma1 with dst := 0x40013000 } } = true ∧ chan1.spi.txe = true) ∧
    (dmaReq .ch0 { chan0Bad with dma0 := { chan0Bad.dma0 with src := 0x20000FFF } } = true ∧
      inWindow base.par 0x20000FFF = false ∧ admitted base.par 0x20000FFF = true ∧
      chan0Bad.dma0.dst = chan0Bad.par.blockBase ∧ chan0Bad.spi.txe = true) ∧
    dmaReq .ch1 { chan1 with spi := { chan1.spi with rxne := false } } = false := by
  unfold running memInv; decide

theorem witness_DmaAccessErrors :
    (running chan0Bad ∧ dmaEnabled .ch0 chan0Bad = true ∧ inWindow chan0Bad.par 0x30000000 = false ∧
      admitted chan0Bad.par 0x30000000 = false) ∧
    (inWindow base.par 0x40013001 = true ∧ (0x40013001 : Word) ≠ base.par.blockBase) ∧
    (inWindow base.par 0x400130FF = true ∧ inWindow base.par 0x40013100 = false ∧
      admitted base.par 0x40013100 = false) ∧
    (dmaEnabled .ch1 { chan1 with dma1 := { chan1.dma1 with dst := 0x20001000 } } = true ∧
      chan1.dma1.src = chan1.par.blockBase ∧ chan1.spi.rxbuf.isSome = true ∧
      inWindow base.par 0x20001000 = false ∧ admitted base.par 0x20001000 = false) := by
  unfold running; decide

theorem witness_TimerTick : running (ticking 0xFFFF 0) ∧ (ticking 0xFFFF 0).tmr.running = true ∧
    running base ∧ base.tmr.running = false := by
  unfold running; decide

theorem witness_OverflowHandler :
    running { base with tmr := ⟨0, false, 0, true, true, false⟩ } ∧
      ¬ (base.tmr.ovf = true ∧ base.tmr.ovfie = true) := by
  unfold running; decide

theorem witness_DmaCompleteHandler :
    running { base with dmairq := true, owner := some 0 } ∧ base.owner = none ∧ base.dmairq = false := by
  unfold running; decide

theorem witness_IrqLineHandler :
    running { base with irq := ⟨true, true, true, true, false⟩ } ∧ base.irq.pend = false := by
  unfold running; decide

theorem witness_DevicePin : running base := by unfold running; decide

/-- Phases to come after a return: a copy of no byte, a copy, and a base phase, as in WADDR and SEND. -/
def toCome : List Phase :=
  [.copy 0x20000F01 (.mem 0x20000000) 0, .copy 0x20000F00 (.lit [0x25, 0x4C]) 2,
   .base (.transmitPolling 2 0x20000F00 0x20000F40)]

/-- What a return starts: past a copy of no byte the copy after it; a base phase; with the list spent, or
only a copy of no byte left, the result (OK, 0x00). -/
theorem witness_afterReturn :
    ((afterReturn 0 ((base).taskAt 0) 0x0E toCome base).taskAt 0).ctx.cur =
        some ⟨.copy 0, { n := 2, dst := 0x20000F00, src := .lit [0x25, 0x4C] }⟩ ∧
      ((afterReturn 0 ((base).taskAt 0) 0x0E toCome base).taskAt 0).ctx.phases = (toCome.drop 2) ∧
      ((afterReturn 0 ((base).taskAt 0) 0x0E (toCome.drop 2) base).taskAt 0).ctx.cur =
        some ⟨.txp .p0, { n := 2, tx := 0x20000F00, rx := 0x20000F40 }⟩ ∧
      ((afterReturn 0 ((base).taskAt 0) 0x0E [] base).taskAt 0).result = some (0x00, 0x0E) ∧
      ((afterReturn 0 ((base).taskAt 0) 0x0E (toCome.take 1) base).taskAt 0).result = some (0x00, 0x00) := by
  decide

/-- CS_SET on a deasserted and on an asserted line. -/
theorem witness_csEvents :
    csEvents true base = [.csChange true] ∧ csEvents true { base with cs := ⟨true⟩ } = [] := by decide

theorem witness_ReadByteRuns :
    running (inStep (.rdb .r0) {} [] received) ∧ rxInv (inStep (.rdb .r0) {} [] received) ∧
      atStep 0 (.rdb .r0) {} [] (inStep (.rdb .r0) {} [] received) ∧ received.spi.rxne = true ∧
      rxInv (inStep (.rdb .r0) {} [] base) ∧ base.spi.rxne = false := by
  unfold running rxInv atStep; decide

/-- With phases to come and with none; CS deasserted and asserted. -/
theorem witness_TransmitByteRuns :
    running (inStep (.txb .b0) { byte := 0xE1 } toCome base) ∧
      atStep 0 (.txb .b0) { byte := 0xE1 } toCome (inStep (.txb .b0) { byte := 0xE1 } toCome base) ∧
      atStep 0 (.txb .b0) { byte := 0xE1 } [] (inStep (.txb .b0) { byte := 0xE1 } [] { base with cs := ⟨true⟩ }) ∧
      spiClean base = true ∧ base.cs.asserted = false ∧ spiClean { base with cs := ⟨true⟩ } = true := by
  unfold running atStep; decide

theorem witness_SetChipSelectRuns :
    running (inStep .scs { level := true } [] base) ∧
      atStep 0 .scs { level := true } [] (inStep .scs { level := true } [] base) ∧
      atStep 0 .scs { level := false } toCome (inStep .scs { level := false } toCome base) := by
  unfold running atStep; decide

/-- With CE low and high, with phases to come and with none. -/
theorem witness_TriggerPulseRuns :
    running (inStep (.pulse .tp0) {} [] base) ∧ atStep 0 (.pulse .tp0) {} [] (inStep (.pulse .tp0) {} [] base) ∧
      base.ce.level = false ∧
      atStep 0 (.pulse .tp0) {} toCome (inStep (.pulse .tp0) {} toCome { base with ce := ⟨true, true⟩ }) := by
  unfold running atStep; decide

theorem witness_InitIORuns :
    running (inStep (.initIO .i0) {} (toCome.drop 1) base) ∧
      atStep 0 (.initIO .i0) {} (toCome.drop 1) (inStep (.initIO .i0) {} (toCome.drop 1) base) ∧
      atStep 0 (.initIO .i0) {} [] (inStep (.initIO .i0) {} [] base) ∧
      base.ce.level = false ∧ ({ base with ce := ⟨true, true⟩ } : State).ce.level = true := by
  unfold running atStep; decide

/-- A transport of the largest length whose target is the largest the counter reaches, with phases to come;
the count just at the target, with phases to come and with none, CS asserted and deasserted. -/
theorem witness_PollingSetupAndFinish :
    running (inStep (.txp .p0) { n := 32 } toCome base) ∧
      atStep 0 (.txp .p0) { n := 32 } toCome (inStep (.txp .p0) { n := 32 } toCome base) ∧
      32 * ({ base.par with timePerByte := 2047 } : Params).timePerByte ≤ 2 ^ base.par.timerWidth - 1 ∧
      base.cs.asserted = false ∧
      atStep 0 (.txp .p9) { n := 2, target := 4 } []
        (inStep (.txp .p9) { n := 2, target := 4 } [] { ticking 4 0 with cs := ⟨true⟩ }) ∧
      atStep 0 (.txp .p9) { n := 2, target := 4 } toCome
        (inStep (.txp .p9) { n := 2, target := 4 } toCome (ticking 4 0)) ∧
      (ticking 4 0).tmr.count = 4 ∧ (ticking 4 0).cs.asserted = false := by
  unfold running atStep; decide

theorem witness_PollingByte :
    running (inStep (.txp .p5) { n := 2, tx := 0x20000FFE, rx := 0x20000000, i := 1 } [] base) ∧
      memInv (inStep (.txp .p5) { n := 2, tx := 0x20000FFE, rx := 0x20000000, i := 1 } [] base) ∧
      atStep 0 (.txp .p5) { n := 2, tx := 0x20000FFE, rx := 0x20000000, i := 1 } []
        (inStep (.txp .p5) { n := 2, tx := 0x20000FFE, rx := 0x20000000, i := 1 } [] base) ∧
      spiClean base = true ∧ admitted base.par (0x20000FFE + BitVec.ofNat 32 1) = true ∧
      admitted base.par (0x20000000 + BitVec.ofNat 32 1) = true := by
  unfold running atStep memInv; decide

/-- Lengths 0 and 33, a target one above the largest, and the token held and free. -/
theorem witness_TransportChecks :
    running base ∧
      atStep 0 (.txp .p0) { n := 0 } [] (inStep (.txp .p0) { n := 0 } [] base) ∧
      atStep 0 (.txd .d0) { n := 33 } [] (inStep (.txd .d0) { n := 33 } [] base) ∧
      2 ^ base.par.timerWidth - 1 < 32 * ({ base.par with timePerByte := 2048 } : Params).timePerByte ∧
      atStep 0 (.txd .d1) { n := 1 } [] (inStep (.txd .d1) { n := 1 } [] { base with owner := some 1 }) ∧
      atStep 0 (.txd .d1) { n := 1 } [] (inStep (.txd .d1) { n := 1 } [] base) ∧ base.owner = none := by
  unfold running atStep; decide

theorem witness_DmaTransactionSetup :
    running (inStep (.txd .d0) { n := 1, tx := 0x20000000 } [] base) ∧
      atStep 0 (.txd .d0) { n := 1, tx := 0x20000000 } [] (inStep (.txd .d0) { n := 1, tx := 0x20000000 } [] base) ∧
      atStep 0 (.txd .d0) { n := 32, tx := 0x20000000 } [] (inStep (.txd .d0) { n := 32, tx := 0x20000000 } [] base) ∧
      32 * base.par.timePerByte ≤ 2 ^ base.par.timerWidth - 1 ∧ base.owner = none ∧ spiClean base = true ∧
      base.dma0.en = false ∧ base.dma1.en = false ∧ base.cs.asserted = false ∧
      admitted base.par 0x20000000 = true := by
  unfold running atStep; decide

/-- The end of a DMA transaction: notified with the value `v`, with the phases `ps` to come. -/
def notified (v : Nat) (ps : List Phase) (s : State) : State :=
  { s with
    cs := ⟨true⟩
    tasks := [{ TaskState.launch [] with ctx := ⟨some ⟨.txd .d17, { n := 2 }⟩, ps, some (.op 0 0 0)⟩, notify := v }] }

theorem witness_DmaTransactionFinish :
    running (notified 1 [] base) ∧ atStep 0 (.txd .d17) { n := 2 } [] (notified 1 [] base) ∧
      atStep 0 (.txd .d17) { n := 2 } toCome (notified 1 toCome base) ∧
      0 < ((notified 1 toCome base).taskAt 0).notify ∧ base.dma0.en = false ∧
      ((notified 2 toCome base).taskAt 0).notify ≠ 1 ∧ base.par.errorPolicy = .fatal ∧
      baseReport.par.errorPolicy = .report := by
  unfold running atStep; decide

/-- Task 0 waiting at D17 under a timeout model, nothing else enabled. -/
def waitingUnder (m : TimeoutModel) (s : State) : State :=
  inStep (.txd .d17) { n := 2 } [] { s with par := { s.par with timeoutModel := m } }

theorem witness_NotificationTimeout :
    running (waitingUnder .free base) ∧ atStep 0 (.txd .d17) { n := 2 } [] (waitingUnder .free base) ∧
      ((waitingUnder .free base).taskAt 0).notify = 0 ∧ (waitingUnder .free base).par.timeoutModel = .free ∧
      timeoutEnabled 0 (waitingUnder .hungOnly baseReport) = true ∧
      timeoutEnabled 0 (waitingUnder .hungOnly holding) = false ∧
      timeoutEnabled 0 (waitingUnder .never base) = false := by
  unfold running atStep; decide

theorem witness_DmaTransactionAbort :
    running (inStep (.txd .t0) { n := 2 } [] { baseReport with cs := ⟨true⟩ }) ∧
      rxInv (inStep (.txd .t0) { n := 2 } [] { baseReport with cs := ⟨true⟩ }) ∧
      atStep 0 (.txd .t0) { n := 2 } [] (inStep (.txd .t0) { n := 2 } [] { baseReport with cs := ⟨true⟩ }) ∧
      baseReport.par.errorPolicy = .report ∧ baseReport.spi.txe = true ∧ baseReport.spi.bsy = false ∧
      baseReport.dma0.en = false ∧ baseReport.dma1.en = false ∧
      (chan1.dma1.sinc, chan1.dma1.dinc, chan1.dma1.ie) = (false, true, true) := by
  unfold running rxInv atStep; decide

/-- A literal byte before the last, the last byte from memory with phases to come, and an address one past
ADMIT. -/
theorem witness_CopyPhase :
    running (inStep (.copy 0) { n := 2, dst := 0x20000F00, src := .lit [0x25, 0x32] } [] base) ∧
      memInv (inStep (.copy 0) { n := 2, dst := 0x20000F00, src := .lit [0x25, 0x32] } [] base) ∧
      atStep 0 (.copy 0) { n := 2, dst := 0x20000F00, src := .lit [0x25, 0x32] } []
        (inStep (.copy 0) { n := 2, dst := 0x20000F00, src := .lit [0x25, 0x32] } [] base) ∧
      atStep 0 (.copy 1) { n := 2, dst := 0x20000F00, src := .mem 0x20000FFE } toCome
        (inStep (.copy 1) { n := 2, dst := 0x20000F00, src := .mem 0x20000FFE } toCome base) ∧
      [0x25#8, 0x32#8][0]? = some 0x25 ∧ 0 + 1 < 2 ∧ 1 + 1 = 2 ∧
      admitted base.par (0x20000F00 + BitVec.ofNat 32 0) = true ∧
      admitted base.par (0x20000FFE + BitVec.ofNat 32 1) = true ∧
      admitted base.par (0x20000FFF + BitVec.ofNat 32 1) = false := by
  unfold running memInv atStep; decide

theorem witness_InstructionsStoreNothing :
    leaves .flushTx shifting (fun _ => true) = true ∧ leaves (.rdSpiSr 4) base (fun _ => true) = true ∧
      leaves (.init 0 0) base (fun _ => true) = true := by decide

/-- The three places: D1 takes the token, the handler and T3 release it. -/
theorem witness_OwnerWrittenAtThreePlaces :
    steps [.task 0] (inStep (.txd .d1) { n := 1 } [] base) (fun t => t.owner == some 0) = true ∧
      steps [.dmaHandler] { base with dmairq := true, owner := some 0 } (fun t => t.owner == none) = true ∧
      steps [.task 0] (inStep (.txd .t3) {} [] { base with owner := some 0 }) (fun t => t.owner == none) = true := by
  decide

theorem witness_MemoryInvariant :
    memInv (next (.dma .ch1) { chan1 with mem := [(0x20000000, 1), (0x20000FFF, 2)] }) ∧
      goesOn (next (.dma .ch1) { chan1 with mem := [(0x20000000, 1), (0x20000FFF, 2)] }) = true := by
  unfold memInv; decide

theorem witness_UnitInvariants :
    timerInv (next (.dma .ch1) chan1) ∧ dmaInv (next (.dma .ch1) chan1) ∧ rxInv (next (.dma .ch1) chan1) ∧
      goesOn (next (.dma .ch1) chan1) = true := by
  unfold timerInv dmaInv rxInv; decide

theorem witness_SerialInvariant :
    serialInv (next (.task 0) (inStep (.txd .d1) { n := 1 } [] base)) ∧
      goesOn (next (.task 0) (inStep (.txd .d1) { n := 1 } [] base)) = true := by
  refine ⟨fun t => ?_, by decide⟩
  cases t with
  | zero => decide
  | succ n => exact ⟨⟨fun h => (by cases h), fun h => (by cases h)⟩, fun _ => rfl⟩

theorem witness_HistoryInvariant :
    lineInv (next .timer { ticking 0 0 with cs := ⟨true⟩, hist := [.csChange true, .regAcc (.task 0) 0x40 4 .write 1] }) ∧
      countInv (next .timer { ticking 0 0 with cs := ⟨true⟩, hist := [.csChange true, .regAcc (.task 0) 0x40 4 .write 1] }) ∧
      goesOn (next .timer (ticking 0 0)) = true := by
  unfold lineInv countInv; decide

theorem witness_InvariantsAtReset :
    memWf [(0x20000000, 1), (0x20000FFF, 2)] = true ∧
      ∀ c ∈ ([(0x20000000, 1), (0x20000FFF, 2)] : Memory), admitted Params.vectors (BitVec.ofNat 32 c.1) = true := by
  decide

theorem witness_ResetState : ([[], [.op 0x01000000 0 0]] : List (List Invocation))[1]? = some [.op 0x01000000 0 0] := by
  decide

/-- A launch refused for each of its conditions, and the launch of the vectors accepted. -/
theorem witness_LaunchRefused :
    refusesLaunch { base with tasks := [] } = true ∧
      refusesLaunch { base with par := { base.par with timerWidth := 7 } } = true ∧
      refusesLaunch { base with par := { base.par with timePerByte := 0 } } = true ∧
      refusesLaunch { base with par := { base.par with blockBase := 0x40013010 } } = true ∧
      refusesLaunch { base with par := { base.par with admitRanges := [⟨0x400130FF, 1⟩] } } = true ∧
      refusesLaunch { base with par := { base.par with frameRxBase := 0x20000F1F } } = true ∧
      refusesLaunch { base with par := { base.par with initRfCh := 128 } } = true ∧
      refusesLaunch { base with par := { base.par with initAddr := [1, 2, 3, 4] } } = true ∧
      launchOk { base.par with timerWidth := 8, admitRanges := [⟨0x40013100, 1⟩], frameRxBase := 0x20000F20, initRfCh := 127 } 1
        = true := by decide

theorem witness_TimerWaitsNeedTicks :
    countInv (inStep (.pulse .tp2) {} [] { ticking 10 0 with
      hist := .regAcc (.task 0) 0x40 4 .write 1 :: (List.replicate 10 (Event.tick 1)) }) ∧
      atStep 0 (.pulse .tp2) {} [] (inStep (.pulse .tp2) {} [] (ticking 10 0)) ∧
      enabled (.task 0) (inStep (.pulse .tp2) {} [] (ticking 10 0)) = true ∧
      atStep 0 (.txp .p9) { target := 4 } [] (inStep (.txp .p9) { target := 4 } [] (ticking 4 0)) ∧
      enabled (.task 0) (inStep (.txp .p9) { target := 4 } [] (ticking 4 0)) = true := by
  unfold countInv atStep; decide

/-! ### The end of a run (10_state.md R180) -/

/-- A running timer, an OVF that is pending and any pin level leave a state final; a pending IRQ, a channel
that is on, a byte in flight, a token held and a halt do not. -/
theorem test_final :
    isFinal { ticking 7 0 with tmr := { (ticking 7 0).tmr with ovf := true, ovfie := true } } = true ∧
      isFinal { base with irq := { base.irq with pin := false } } = true ∧
      isFinal { base with irq := { base.irq with pend := true } } = false ∧
      isFinal { base with dma0 := { base.dma0 with en := true } } = false ∧
      isFinal holding = false ∧ isFinal { base with owner := some 0 } = false ∧
      isFinal { base with halted := some (.unwrittenRead 0x00) } = false ∧
      isFinal (about (.op 0x01000000 0 0) base) = false := by decide

/-- A run ends where it starts when that state is final, although the timer could tick there; one access of
a program is one step, and the run ends in the state it leaves. -/
theorem test_run_ends :
    runAt (ticking 7 0) 1 = none ∧ enabled .timer (ticking 7 0) = true ∧
      (runAt (placeInvocation (.acc 0x04 4 .read 0) base) 1).any isFinal = true ∧
      runAt (placeInvocation (.acc 0x04 4 .read 0) base) 2 = none := by decide

/-- The run that ends at its start, a final state, is a fair run. -/
theorem witness_isFair : isFair (runAt base) := by
  have hend : ∀ k, runAt base (k + 1) = none := fun k => by
    have h : runAt base 1 = none := by decide
    induction k with
    | zero => exact h
    | succ k ih => rw [runAt, ih]; rfl
  have hno : ∀ k p, ¬ holdsAt (runAt base) (k + 1) p := fun k p ⟨s, h, _⟩ => by rw [hend] at h; cases h
  refine ⟨⟨⟨base, rfl⟩, fun _ => rfl⟩, fun a k h => ?_, fun t k h => ?_⟩
  · exact absurd (h (k + 1) (Nat.le_succ k)) (hno k _)
  · obtain ⟨i, hi, hp⟩ := h (k + 1) (Nat.le_succ k)
    obtain ⟨j, rfl⟩ := Nat.exists_eq_add_of_le' (Nat.lt_of_lt_of_le (Nat.succ_pos k) hi)
    exact absurd hp (hno j _)

/-! ### Placed instructions run first after reset -/

theorem test_withFetchWord :
    (match step (State.reset.withFetchWord 32 0x20053200) with
      | .next t => t.hist == [.issue 0 0x20053200 0 0]
      | _ => false) = true ∧
    (match step (State.reset.withFetchWord 9 0x004) with
      | .next t => t.hist == [.regAcc (.task 0) 0x04 4 .read 2]
      | _ => false) = true := by decide

end Sys2Proof.Tests
end

section
/-! PROOF. The shared operations under an invariant: what writing a register can do to the units, what an exchange and a pin step are, and that a property kept by every admitted access is kept by a channel's transfer up to the channel's own registers (20_memory.md R210-R215; 43_dma_engine.md R486-R488). -/

namespace Sys2Proof.Safety

open Sys2Proof.Machine

/-! ### Draws -/

theorem drawMiso_eq (s : State) : ∃ d, (drawMiso s).2 = s.setDraws d := by
  unfold drawMiso
  split <;> exact ⟨_, rfl⟩

theorem drawPin_eq (s : State) : ∃ d, (drawPin s).2 = s.setDraws d := by
  unfold drawPin
  split <;> exact ⟨_, rfl⟩

theorem drawAgent_eq (s : State) : ∃ d, (drawAgent s).2 = s.setDraws d := by
  unfold drawAgent
  split <;> exact ⟨_, rfl⟩

/-- An exchange takes a draw, records itself and sets the flags of FINISH (42_spi_transport.md R445). -/
theorem exchange_eq (b : Byte) (s : State) :
    ∃ d m, exchange b s =
      ((s.setDraws d).emit (.exchange b m s.cs.asserted)).setSpi (finishFlags s.spi m) := by
  obtain ⟨d, hd⟩ := drawMiso_eq s
  exact ⟨d, (drawMiso s).1, by rw [exchange, hd]⟩

/-- A pin step takes a draw and touches the IRQ input (44_frame_sequencer.md R560). -/
theorem pinStep_eq (s : State) : ∃ d q, pinStep s = (s.setDraws d).setIrq q := by
  obtain ⟨d, hd⟩ := drawPin_eq s
  exact ⟨d, irqEdge s.irq (drawPin s).1, by rw [pinStep, hd]⟩

/-! ### The channels -/

/-- A running channel has bytes left: `dmaInv` of one channel (43_dma_engine.md R482, R487). -/
def bytesLeft (d : DmaChan) : Prop := d.en = true → d.cnt ≠ 0

theorem bytesLeft_of_stopped {d : DmaChan} (h : d.en = false) : bytesLeft d := fun he => by
  rw [h] at he; cases he

theorem bytesLeft_of_dmaInv {s : State} (h : dmaInv s) (n : Chan) : bytesLeft (s.dma n) := by
  cases n
  · exact h.1
  · exact h.2

/-! ### What a register write can do -/

/-- The states a write of `v` to `r` can leave, by the unit it touches (20_memory.md R210): the lines with
their event, the timer by TMR_CTRL or without its count, a channel that still meets `bytesLeft`. -/
inductive WriteEffect (r : Reg) (v : Word) (s : State) : State → Prop
  | unchanged : WriteEffect r v s s
  | spi (p : SpiState) (hne : p.rxne = s.spi.rxne) (hbuf : p.rxbuf = s.spi.rxbuf) :
      WriteEffect r v s (s.setSpi p)
  | csLine (b : Bool) : WriteEffect r v s ((s.setCs ⟨b⟩).emit (.csChange b))
  | ceLevel (b : Bool) : WriteEffect r v s ((s.setCe { s.ce with level := b }).emit (.ceChange b))
  | ceDrive (b : Bool) : WriteEffect r v s (s.setCe { s.ce with oe := b })
  | irq (q : IrqState) : WriteEffect r v s (s.setIrq q)
  | timerControl (hr : r = .tmrCtrl) : WriteEffect r v s (writeTmrCtrl v s)
  | timerLoad (x : Nat) : WriteEffect r v s (s.setTmr { s.tmr with load := x % 2 ^ s.par.timerWidth })
  | timerFlags (ie ovf mtch : Bool) :
      WriteEffect r v s (s.setTmr { s.tmr with ovfie := ie, ovf := ovf, mtch := mtch })
  | channel (n : Chan) (d : DmaChan) (hd : bytesLeft (s.dma n) → bytesLeft d) : WriteEffect r v s (s.setDma n d)
  | channelDone (n : Chan) (d : DmaChan) : WriteEffect r v s (dmaComplete n (s.setDma n d))
  | request (b : Bool) : WriteEffect r v s (s.setDmairq b)

theorem dmaConfigure_en (v : Word) (d : DmaChan) : (dmaConfigure v d).en = d.en := by
  unfold dmaConfigure
  split <;> rfl

theorem dmaConfigure_cnt (v : Word) (d : DmaChan) : (dmaConfigure v d).cnt = d.cnt := by
  unfold dmaConfigure
  split <;> rfl

/-- A write of DMA_CTRL starts a channel only with bytes left (43_dma_engine.md R482). -/
theorem writeDmaCtrl_effect (r : Reg) (n : Chan) (v : Word) (s : State) :
    WriteEffect r v s (writeDmaCtrl n v s) := by
  unfold writeDmaCtrl
  by_cases hen : (dmaConfigure v (s.dma n)).en = true
  · rw [if_pos hen]
    refine .channel n _ fun hb _ => ?_
    have hrun : (s.dma n).en = true := by rw [← dmaConfigure_en v, hen]
    simpa [dmaConfigure_cnt] using hb hrun
  · rw [if_neg hen]
    by_cases hstart : bitOf v 0 = true
    · rw [if_pos hstart]
      by_cases hcnt : (dmaConfigure v (s.dma n)).cnt = 0
      · rw [if_pos hcnt]; exact .channelDone n _
      · rw [if_neg hcnt]; exact .channel n _ fun _ _ => hcnt
    · rw [if_neg hstart]
      exact .channel n _ fun _ => bytesLeft_of_stopped (by simpa using hen)

/-- A CS write either leaves the line or moves it and says so (40_chip_select.md R400, R401). -/
theorem writeCs_effect (r : Reg) (v : Word) (c b : Bool) (s : State) :
    WriteEffect r v s (if c then (s.setCs ⟨b⟩).emit (.csChange b) else s) := by
  cases c
  · exact .unchanged
  · exact .csLine b

/-- A CE write either leaves the level or moves it and says so (40_chip_select.md R404, R405). -/
theorem writeCe_effect (r : Reg) (v : Word) (c b : Bool) (s : State) :
    WriteEffect r v s (if c then (s.setCe { s.ce with level := b }).emit (.ceChange b) else s) := by
  cases c
  · exact .unchanged
  · exact .ceLevel b

/-- What a write does, register by register; DMA_CNT is not written while its channel runs
(20_memory.md R212 check 4). -/
theorem writeReg_effect {r : Reg} {v : Word} {s s' : State} (hbusy : regDmaBusy r v s = false)
    (h : writeReg r v s = some s') : WriteEffect r v s s' := by
  cases r
  case spiDr =>
    simp only [writeReg, writeSpiDr] at h
    split at h
    · cases h; exact .spi _ rfl rfl
    · cases h
  all_goals cases h
  case spiSr => exact .spi _ rfl rfl
  case spiCr => exact .spi _ rfl rfl
  case csSet => exact writeCs_effect _ _ _ true s
  case csClr => exact writeCs_effect _ _ _ false s
  case csState => exact .unchanged
  case ceSet => exact writeCe_effect _ _ _ true s
  case ceClr => exact writeCe_effect _ _ _ false s
  case ceState => exact .unchanged
  case ceCfg => exact .ceDrive _
  case irqCfg => exact .irq _
  case irqPend => exact .irq _
  case tmrCtrl => exact .timerControl rfl
  case tmrLoad => exact .timerLoad _
  case tmrCount => exact .unchanged
  case tmrIer => exact .timerFlags _ _ _
  case tmrSr => exact .timerFlags _ _ _
  case dmaSrc n => exact .channel n _ id
  case dmaDst n => exact .channel n _ id
  case dmaCnt n => exact .channel n _ fun _ => bytesLeft_of_stopped hbusy
  case dmaCtrl n => exact writeDmaCtrl_effect _ n v s
  case dmaFlags n => exact .channel n _ id
  case dmaIrq => exact .request _

theorem regDmaBusy_emit (r : Reg) (v : Word) (s : State) (e : Event) :
    regDmaBusy r v (s.emit e) = regDmaBusy r v s := by
  cases r <;> simp [regDmaBusy]

/-- An admitted write: the access recorded, then the register's effect. -/
theorem regWriteBy_effect {a : Agent} {r : Reg} {n : Nat} {v : Word} {s s' : State}
    (hok : regWriteOk r n v s = true) (h : regWriteBy a r n v s = some s') :
    WriteEffect r v (s.emit (.regAcc a (regOffset r) n .write (accessValue n v))) s' := by
  have hbusy : regDmaBusy r v s = false := by
    simp only [regWriteOk, Bool.and_eq_true, Bool.not_eq_true'] at hok
    exact hok.2
  exact writeReg_effect (by rw [regDmaBusy_emit, hbusy]) h

/-! ### A channel's transfer -/

section Transfer

variable {I : State → Prop}
  (hread : ∀ {a r n s v s'}, regReadBy a r n s = some (v, s') → I s → I s')
  (hwrite : ∀ {a r n v s s'}, regWriteOk r n v s = true → regWriteBy a r n v s = some s' → I s → I s')
  (hmemRead : ∀ {a addr s v s'}, memRead a addr s = some (v, s') → I s → I s')
  (hmemWrite : ∀ {a addr v s s'}, memWrite a addr v s = some s' → I s → I s')

include hread hmemRead in
theorem dmaReadByte_keeps {n : Chan} {a : Word} {s s' : State} {b : Byte}
    (h : dmaReadByte n a s = some (b, s')) (hi : I s) : I s' := by
  unfold dmaReadByte at h
  split at h
  · split at h
    · cases hr : regReadBy (.dma n) .spiDr 1 s with
      | none => rw [hr] at h; cases h
      | some p => rw [hr] at h; cases h; exact hread hr hi
    · cases h
  · exact hmemRead h hi

include hwrite hmemWrite in
theorem dmaWriteByte_keeps {n : Chan} {d : Word} {b : Byte} {s s' : State}
    (h : dmaWriteByte n d b s = some s') (hi : I s) : I s' := by
  unfold dmaWriteByte at h
  split at h
  · split at h
    · exact hwrite rfl h hi
    · cases h
  · exact hmemWrite h hi

include hread hwrite hmemRead hmemWrite in
/-- A property that every admitted access keeps holds after a transfer, once it survives what R486 to R488
do to the channel's own registers: stop on an error, advance, complete. -/
theorem dmaTransfer_keeps {n : Chan}
    (hchan : ∀ s d, bytesLeft d → I s → I (s.setDma n d)) (hdone : ∀ s d, I s → I (dmaComplete n (s.setDma n d)))
    {s : State} (hi : I s) : I (dmaTransfer n s) := by
  have herror : ∀ s, I s → I (dmaAccessError n s) := fun s => hchan s _ (bytesLeft_of_stopped rfl)
  unfold dmaTransfer
  split
  · exact herror s hi
  · rename_i b s1 h1
    have hi1 := dmaReadByte_keeps hread hmemRead h1 hi
    split
    · exact herror s1 hi1
    · rename_i s2 h2
      have hi2 := dmaWriteByte_keeps hwrite hmemWrite h2 hi1
      by_cases hcnt : (dmaAdvance (s2.dma n)).cnt = 0
      · simpa only [hcnt, if_true] using hdone s2 _ hi2
      · simpa only [hcnt, if_false] using hchan s2 _ (fun _ => hcnt) hi2

end Transfer

end Sys2Proof.Safety
end

section
/-! PROOF. O54: the timer stays within W bits, a running channel has bytes left, RXNE comes with a received byte. -/

namespace Sys2Proof.Safety

open Sys2Proof.Machine

/-- The three invariants of the units, together. -/
def unitInv (s : State) : Prop := timerInv s ∧ dmaInv s ∧ rxInv s

theorem timerInv_writeTmrCtrl (v : Word) {s : State} (h : timerInv s) : timerInv (writeTmrCtrl v s) := by
  refine ⟨?_, h.2⟩
  simp only [writeTmrCtrl, setTmr_tmr, setTmr_par]
  split
  · exact Nat.two_pow_pos _
  · exact h.1

theorem timerInv_tick {s : State} (h : timerInv s) : timerInv (tick s) :=
  ⟨Nat.mod_lt _ (Nat.two_pow_pos _), h.2⟩

/-- FINISH sets RXNE together with the received byte (42_spi_transport.md R445). -/
theorem unitInv_exchange (b : Byte) {s : State} (h : unitInv s) : unitInv (exchange b s) := by
  obtain ⟨htmr, hdma, hrx⟩ := h
  obtain ⟨d, m, he⟩ := exchange_eq b s
  rw [he]
  refine ⟨htmr, hdma, ?_⟩
  unfold rxInv
  simp only [setSpi_spi, finishFlags]
  split
  · exact hrx
  · exact fun _ => rfl

theorem unitInv_setDma {s : State} {n : Chan} {d : DmaChan} (hd : bytesLeft d) (h : unitInv s) :
    unitInv (s.setDma n d) := by
  obtain ⟨htmr, hdma, hrx⟩ := h
  cases n
  · exact ⟨htmr, ⟨hd, hdma.2⟩, hrx⟩
  · exact ⟨htmr, ⟨hdma.1, hd⟩, hrx⟩

/-- A channel that completes has stopped, whatever its registers held (43_dma_engine.md R487). -/
theorem unitInv_dmaComplete (n : Chan) (d : DmaChan) {s : State} (h : unitInv s) :
    unitInv (dmaComplete n (s.setDma n d)) := by
  obtain ⟨htmr, hdma, hrx⟩ := h
  cases n
  · exact ⟨htmr, ⟨bytesLeft_of_stopped rfl, hdma.2⟩, hrx⟩
  · exact ⟨htmr, ⟨hdma.1, bytesLeft_of_stopped rfl⟩, hrx⟩

theorem unitInv_readReg {r : Reg} {s s' : State} {v : Word} (h : readReg r s = some (v, s')) (hi : unitInv s) :
    unitInv s' := by
  rcases readReg_cases h with rfl | ⟨-, rfl⟩
  · exact hi
  · obtain ⟨htmr, hdma, -⟩ := hi
    exact ⟨htmr, hdma, fun hne => by cases hne⟩

theorem unitInv_regReadBy {a : Agent} {r : Reg} {n : Nat} {s s' : State} {v : Word}
    (h : regReadBy a r n s = some (v, s')) (hi : unitInv s) : unitInv s' := by
  obtain ⟨s1, hr, rfl⟩ := regReadBy_spec h
  have hi1 : unitInv s1 := unitInv_readReg hr hi
  exact hi1

/-- Every effect of a register write keeps the units' invariants. -/
theorem unitInv_writeEffect {r : Reg} {v : Word} {s s' : State} (h : WriteEffect r v s s') (hi : unitInv s) :
    unitInv s' := by
  obtain ⟨htmr, hdma, hrx⟩ := hi
  cases h with
  | unchanged | csLine | ceLevel | ceDrive | irq | timerFlags | request => exact ⟨htmr, hdma, hrx⟩
  | spi p hne hbuf => exact ⟨htmr, hdma, fun hp => by rw [setSpi_spi, hbuf]; exact hrx (hne ▸ hp)⟩
  | timerControl => exact ⟨timerInv_writeTmrCtrl v htmr, hdma, hrx⟩
  | timerLoad x => exact ⟨⟨htmr.1, Nat.mod_lt _ (Nat.two_pow_pos _)⟩, hdma, hrx⟩
  | channel n d hd => exact unitInv_setDma (hd (bytesLeft_of_dmaInv hdma n)) ⟨htmr, hdma, hrx⟩
  | channelDone n d => exact unitInv_dmaComplete n d ⟨htmr, hdma, hrx⟩

theorem unitInv_regWriteBy {a : Agent} {r : Reg} {n : Nat} {v : Word} {s s' : State}
    (hok : regWriteOk r n v s = true) (h : regWriteBy a r n v s = some s') (hi : unitInv s) : unitInv s' :=
  unitInv_writeEffect (regWriteBy_effect hok h) hi

theorem unitInv_memRead {a : Agent} {addr : Word} {s s' : State} {v : Byte}
    (h : memRead a addr s = some (v, s')) (hi : unitInv s) : unitInv s' := by
  obtain ⟨-, -, rfl⟩ := memRead_spec h
  exact hi

theorem unitInv_memWrite {a : Agent} {addr : Word} {v : Byte} {s s' : State}
    (h : memWrite a addr v s = some s') (hi : unitInv s) : unitInv s' := by
  obtain ⟨-, rfl⟩ := memWrite_spec h
  exact hi

theorem unitInv_dmaTransfer (n : Chan) {s : State} (hi : unitInv s) : unitInv (dmaTransfer n s) :=
  dmaTransfer_keeps unitInv_regReadBy unitInv_regWriteBy unitInv_memRead unitInv_memWrite
    (fun _ _ => unitInv_setDma) (fun _ d => unitInv_dmaComplete n d) hi

/-- Every named operation of a step keeps the units' invariants; the sequencer's own (10_state.md R102-R107)
touch no unit. -/
theorem unitInv_closed : Closed fun s s' => unitInv s → unitInv s' where
  refl _ h := h
  trans f g h := g (f h)
  progress _ _ _ h := h
  task _ _ _ h := h
  active _ _ h := h
  owner _ _ h := h
  halted _ _ h := h
  draws _ _ h := h
  curTask _ _ h := h
  regRead := unitInv_regReadBy
  regWrite := unitInv_regWriteBy
  memRead := unitInv_memRead
  memWrite := unitInv_memWrite
  start _ _ h := h
  finish b _ _ := unitInv_exchange b
  transfer n _ _ := unitInv_dmaTransfer n
  tick _ _ h := ⟨timerInv_tick h.1, h.2⟩
  ovfHandler _ h := h
  pin s h := by
    obtain ⟨d, q, hp⟩ := pinStep_eq s
    rw [hp]
    exact h

/-- Settles O54: each named operation keeps the three invariants, so every step does. -/
theorem unitInvariants : Obligations.UnitInvariants := by
  unfold Obligations.UnitInvariants
  intro s s' htmr hdma hrx hstep
  exact unitInv_closed.step hstep ⟨htmr, hdma, hrx⟩

end Sys2Proof.Safety
end

section
/-! PROOF. O56: CS, CE and the timer count are what the history shows. Only a line change, a tick and a write of TMR_CTRL bear on them (10_state.md R161; 41_timer.md R420, R430). -/

namespace Sys2Proof.Safety

open Sys2Proof.Machine

/-! ### Events that show nothing -/

/-- An event that bears neither on a line nor on the count. -/
def silent (e : Event) : Prop :=
  ∀ h, csFromHist (h ++ [e]) = csFromHist h ∧ ceFromHist (h ++ [e]) = ceFromHist h ∧
    ticksSinceClear (h ++ [e]) = ticksSinceClear h

/-- The kinds of event the levels and the count are read from. -/
def isShown : Event → Bool
  | .csChange _ => true
  | .ceChange _ => true
  | .tick _ => true
  | .regAcc _ _ _ .write _ => true
  | _ => false

theorem silent_of_not_isShown {e : Event} (he : isShown e = false) : silent e := fun h => by
  cases e with
  | csChange | ceChange | tick => cases he
  | regAcc a off n dir v =>
    cases dir with
    | read => simp [csFromHist, ceFromHist, ticksSinceClear]
    | write => cases he
  | _ => simp [csFromHist, ceFromHist, ticksSinceClear]

theorem silent_of_isProgress {e : Event} (he : e.isProgress = true) : silent e := by
  cases e with
  | issue | result | timeout | halt | radioIrq => exact silent_of_not_isShown rfl
  | _ => cases he

/-- A write elsewhere than at TMR_CTRL's offset does not clear the count. -/
theorem silent_regWrite {r : Reg} (hr : r ≠ .tmrCtrl) (a : Agent) (n : Nat) (v : Word) :
    silent (.regAcc a (regOffset r) n .write v) := fun h => by
  have hoff : regOffset r ≠ 0x40#8 := fun he => hr (by
    have hat := regAt_regOffset r
    rw [he] at hat
    exact (Option.some.inj hat).symm)
  simp [csFromHist, ceFromHist, ticksSinceClear, hoff]

/-! ### The invariant under one update -/

/-- The lines and the count are what the history shows. -/
def histInv (s : State) : Prop := lineInv s ∧ countInv s

theorem histInv_emit {e : Event} {s : State} (he : silent e) (h : histInv s) : histInv (s.emit e) := by
  obtain ⟨⟨hcs, hce⟩, hcount⟩ := h
  obtain ⟨h1, h2, h3⟩ := he s.hist
  exact ⟨⟨h1.trans hcs, h2.trans hce⟩, by rw [countInv, emit_hist, h3]; exact hcount⟩

/-- A CS change is recorded as it happens (10_state.md R161). -/
theorem histInv_csLine (b : Bool) {s : State} (h : histInv s) :
    histInv ((s.setCs ⟨b⟩).emit (.csChange b)) := by
  obtain ⟨⟨-, hce⟩, hcount⟩ := h
  refine ⟨⟨?_, ?_⟩, ?_⟩
  · simp [csFromHist]
  · simpa [ceFromHist] using hce
  · simpa [countInv, ticksSinceClear] using hcount

/-- A CE change is recorded as it happens (10_state.md R161). -/
theorem histInv_ceLevel (b : Bool) {s : State} (h : histInv s) :
    histInv ((s.setCe { s.ce with level := b }).emit (.ceChange b)) := by
  obtain ⟨⟨hcs, -⟩, hcount⟩ := h
  refine ⟨⟨?_, ?_⟩, ?_⟩
  · simpa [csFromHist] using hcs
  · simp [ceFromHist]
  · simpa [countInv, ticksSinceClear] using hcount

/-- A tick adds one to the count, modulo 2^W, and is recorded (41_timer.md R426). -/
theorem histInv_tick {s : State} (h : histInv s) : histInv (tick s) := by
  obtain ⟨⟨hcs, hce⟩, hcount⟩ := h
  refine ⟨⟨?_, ?_⟩, ?_⟩
  · simpa [tick, csFromHist] using hcs
  · simpa [tick, ceFromHist] using hce
  · have hticks : ticksSinceClear (tick s).hist = ticksSinceClear s.hist + 1 := by
      simp [tick, ticksSinceClear]
    show (s.tmr.count + 1) % 2 ^ s.par.timerWidth = _
    rw [hticks, hcount, Nat.mod_add_mod]
    rfl

/-- A byte write moves the low bits unchanged (20_memory.md R211). -/
theorem bitOf_accessValue {i : Nat} (hi : i < 8) (n : Nat) (v : Word) : bitOf (accessValue n v) i = bitOf v i := by
  unfold accessValue bitOf
  split
  · have hmask : (0xFF#32).getLsbD i = true := by interval_cases i <;> rfl
    rw [BitVec.getLsbD_and, hmask, Bool.and_true]
  · rfl

/-- A write of TMR_CTRL clears the count exactly when the recorded value has START or RESET
(41_timer.md R420, R430). -/
theorem histInv_writeTmrCtrl (a : Agent) (n : Nat) (v : Word) {s : State} (h : histInv s) :
    histInv (writeTmrCtrl v (s.emit (.regAcc a (regOffset .tmrCtrl) n .write (accessValue n v)))) := by
  obtain ⟨⟨hcs, hce⟩, hcount⟩ := h
  refine ⟨⟨?_, ?_⟩, ?_⟩
  · simpa [writeTmrCtrl, csFromHist] using hcs
  · simpa [writeTmrCtrl, ceFromHist] using hce
  · unfold countInv at hcount ⊢
    have hstart := bitOf_accessValue (show 0 < 8 by decide) n v
    have hreset := bitOf_accessValue (show 2 < 8 by decide) n v
    simp only [writeTmrCtrl, setTmr_tmr, setTmr_hist, setTmr_par, emit_hist, emit_tmr, emit_par, ticksSinceClear,
      List.foldl_append, List.foldl_cons, List.foldl_nil, hstart, hreset, regOffset, true_and]
    rw [Bool.or_comm]
    split
    · rfl
    · exact hcount

/-! ### The named operations -/

theorem histInv_setDma {s : State} {n : Chan} {d : DmaChan} (h : histInv s) : histInv (s.setDma n d) := by
  cases n <;> exact h

theorem histInv_dmaComplete (n : Chan) {s : State} (h : histInv s) : histInv (dmaComplete n s) := by
  cases n <;> exact h

theorem histInv_regReadBy {a : Agent} {r : Reg} {n : Nat} {s s' : State} {v : Word}
    (h : regReadBy a r n s = some (v, s')) (hi : histInv s) : histInv s' := by
  obtain ⟨s1, hr, rfl⟩ := regReadBy_spec h
  refine histInv_emit (silent_of_not_isShown rfl) ?_
  rcases readReg_cases hr with rfl | ⟨-, rfl⟩
  · exact hi
  · exact hi

/-- Every effect of a register write but TMR_CTRL's leaves the count and keeps the lines recorded. -/
theorem histInv_writeEffect {r : Reg} {v : Word} {s s' : State} (hr : r ≠ .tmrCtrl) (h : WriteEffect r v s s')
    (hi : histInv s) : histInv s' := by
  cases h with
  | unchanged | spi | ceDrive | irq | timerLoad | timerFlags | request => exact hi
  | csLine b => exact histInv_csLine b hi
  | ceLevel b => exact histInv_ceLevel b hi
  | timerControl hctrl => exact absurd hctrl hr
  | channel => exact histInv_setDma hi
  | channelDone n d => exact histInv_dmaComplete n (histInv_setDma hi)

theorem histInv_regWriteBy {a : Agent} {r : Reg} {n : Nat} {v : Word} {s s' : State}
    (hok : regWriteOk r n v s = true) (h : regWriteBy a r n v s = some s') (hi : histInv s) : histInv s' := by
  by_cases hr : r = .tmrCtrl
  · subst hr
    cases h
    exact histInv_writeTmrCtrl a n v hi
  · exact histInv_writeEffect hr (regWriteBy_effect hok h) (histInv_emit (silent_regWrite hr _ _ _) hi)

theorem histInv_memRead {a : Agent} {addr : Word} {s s' : State} {v : Byte}
    (h : memRead a addr s = some (v, s')) (hi : histInv s) : histInv s' := by
  obtain ⟨-, -, rfl⟩ := memRead_spec h
  exact histInv_emit (silent_of_not_isShown rfl) hi

theorem histInv_memWrite {a : Agent} {addr : Word} {v : Byte} {s s' : State}
    (h : memWrite a addr v s = some s') (hi : histInv s) : histInv s' := by
  obtain ⟨-, rfl⟩ := memWrite_spec h
  exact histInv_emit (s := s.setMem _) (silent_of_not_isShown rfl) hi

theorem histInv_exchange (b : Byte) {s : State} (hi : histInv s) : histInv (exchange b s) := by
  obtain ⟨d, m, he⟩ := exchange_eq b s
  have hrecorded : histInv ((s.setDraws d).emit (.exchange b m s.cs.asserted)) :=
    histInv_emit (s := s.setDraws d) (silent_of_not_isShown rfl) hi
  rw [he]
  exact hrecorded

theorem histInv_dmaTransfer (n : Chan) {s : State} (hi : histInv s) : histInv (dmaTransfer n s) :=
  dmaTransfer_keeps histInv_regReadBy histInv_regWriteBy histInv_memRead histInv_memWrite
    (fun _ _ _ => histInv_setDma) (fun _ _ h => histInv_dmaComplete n (histInv_setDma h)) hi

/-- Every named operation of a step keeps the lines and the count as the history shows them. -/
theorem histInv_closed : Closed fun s s' => histInv s → histInv s' where
  refl _ h := h
  trans f g h := g (f h)
  progress _ _ he := histInv_emit (silent_of_isProgress he)
  task _ _ _ h := h
  active _ _ h := h
  owner _ _ h := h
  halted _ _ h := h
  draws _ _ h := h
  curTask _ _ h := h
  regRead := histInv_regReadBy
  regWrite := histInv_regWriteBy
  memRead := histInv_memRead
  memWrite := histInv_memWrite
  start _ _ h := h
  finish b _ _ := histInv_exchange b
  transfer n _ _ := histInv_dmaTransfer n
  tick _ _ := histInv_tick
  ovfHandler _ h := h
  pin s h := by
    obtain ⟨d, q, hp⟩ := pinStep_eq s
    rw [hp]
    exact h

/-- Settles O56: each named operation keeps the lines and the count as the history shows them, so every
step does. -/
theorem historyInvariant : Obligations.HistoryInvariant := by
  unfold Obligations.HistoryInvariant
  intro s s' hline hcount hstep
  exact histInv_closed.step hstep ⟨hline, hcount⟩

end Sys2Proof.Safety
end

section
/-! PROOF. What a step does to the sequencer, said once: the agents other than a task in its operation leave `active` and every context alone, an issue starts an operation, and a step of an operation waits where it is, moves its task to a next step, or ends the operation (10_state.md R105-R107; 60_exceptions.md R603-R611). -/

namespace Sys2Proof.Safety

open Sys2Proof.Machine

/-! ### Steps that leave the sequencer alone -/

/-- `active`, the number of tasks and every context are as before. -/
structure SameSequencer (s s' : State) : Prop where
  active : s'.active = s.active
  length : s'.tasks.length = s.tasks.length
  ctx : ∀ u, (s'.taskAt u).ctx = (s.taskAt u).ctx

namespace SameSequencer

theorem refl (s : State) : SameSequencer s s := ⟨rfl, rfl, fun _ => rfl⟩

theorem trans {a b c : State} (h : SameSequencer a b) (k : SameSequencer b c) : SameSequencer a c :=
  ⟨k.active.trans h.active, k.length.trans h.length, fun u => (k.ctx u).trans (h.ctx u)⟩

theorem of_tasks {s s' : State} (ha : s'.active = s.active) (ht : s'.tasks = s.tasks) : SameSequencer s s' :=
  ⟨ha, by rw [ht], fun u => by rw [State.taskAt, ht]; rfl⟩

theorem of_sameOutside {s s' : State} (h : SameOutside s s') : SameSequencer s s' := of_tasks h.active h.tasks

theorem emit (s : State) (e : Event) : SameSequencer s (s.emit e) := of_tasks rfl rfl

theorem setMem (m : Memory) (s : State) : SameSequencer s (s.setMem m) := of_tasks rfl rfl

theorem setOwner (o : Option Nat) (s : State) : SameSequencer s (s.setOwner o) := of_tasks rfl rfl

theorem setNotify (t v : Nat) (s : State) : SameSequencer s (s.setNotify t v) :=
  ⟨rfl, setNotify_length s t v, fun u => ctx_setNotify s t u v⟩

theorem setProg (t : Nat) (p : List Invocation) (s : State) : SameSequencer s (s.setProg t p) :=
  ⟨rfl, setProg_length s t p, fun u => ctx_setProg s t u p⟩

theorem haltWith (t : Nat) (p : Option Place) (e : Abnormal) (s : State) : SameSequencer s (haltWith t p e s) :=
  of_tasks rfl rfl

theorem reportAtIssue (t : Nat) (code : Byte) (s : State) : SameSequencer s (reportAtIssue t code s) :=
  ⟨rfl, setResult_length s t code _, fun u => ctx_setResult s t u code _⟩

/-- A raise outside the steps of an operation halts or reports: no context moves (60_exceptions.md R603). -/
theorem raise {t : Nat} {p : Option Place} (hp : ∀ l, p ≠ some (.step l)) (e : Abnormal) (s : State) :
    SameSequencer s (raise t p e s) := by
  rcases raise_cases t p e s with h | ⟨-, -, ⟨l, hl, -⟩ | ⟨-, h⟩⟩
  · rw [h]; exact haltWith t p e s
  · exact absurd hl (hp l)
  · rw [h]; exact reportAtIssue _ _ _

theorem memRead {a : Agent} {addr : Word} {s s' : State} {v : Byte} (h : memRead a addr s = some (v, s')) :
    SameSequencer s s' := by
  obtain ⟨-, -, rfl⟩ := memRead_spec h
  exact of_tasks rfl rfl

theorem memWrite {a : Agent} {addr : Word} {v : Byte} {s s' : State} (h : memWrite a addr v s = some s') :
    SameSequencer s s' := by
  obtain ⟨-, rfl⟩ := memWrite_spec h
  exact of_tasks rfl rfl

theorem exchange (b : Byte) (s : State) : SameSequencer s (exchange b s) := by
  obtain ⟨d, m, he⟩ := exchange_eq b s
  rw [he]
  exact of_tasks rfl rfl

theorem dmaTransfer (n : Chan) (s : State) : SameSequencer s (dmaTransfer n s) :=
  dmaTransfer_keeps (I := SameSequencer s)
    (fun h k => k.trans (of_sameOutside (regReadBy_same h)))
    (fun _ h k => k.trans (of_sameOutside (regWriteBy_same h)))
    (fun h k => k.trans (memRead h)) (fun h k => k.trans (memWrite h))
    (fun s1 d _ k => k.trans (of_sameOutside (.setDma s1 n d)))
    (fun s1 d k => k.trans (of_sameOutside ((SameOutside.setDma s1 n d).trans (dmaComplete_same n _))))
    (refl s)

theorem handlerWrite (a : Agent) (r : Reg) (v : Word) (s : State) : SameSequencer s (handlerWrite a r v s) :=
  of_sameOutside (handlerWrite_same a r v s)

theorem dmaHandlerStep (s : State) : SameSequencer s (dmaHandlerStep s) := by
  unfold Machine.dmaHandlerStep
  split
  · rename_i u _
    exact (setNotify u _ s).trans ((setOwner none _).trans (handlerWrite _ _ _ _))
  · exact handlerWrite _ _ _ s

theorem pinStep (s : State) : SameSequencer s (pinStep s) := by
  obtain ⟨d, q, hp⟩ := pinStep_eq s
  rw [hp]
  exact of_tasks rfl rfl

theorem drawAgent (s : State) : SameSequencer s (drawAgent s).2 := by
  obtain ⟨d, hd⟩ := drawAgent_eq s
  rw [hd]
  exact of_tasks rfl rfl

theorem directRead {r : Reg} {n : Nat} {s s' : State} (h : directRead r n s = .next s') : SameSequencer s s' := by
  rcases directRead_cases h with ⟨v, hr⟩ | ⟨e, rfl⟩
  · exact of_sameOutside (regReadBy_same hr)
  · exact haltWith _ _ _ _

theorem directWrite {r : Reg} {n : Nat} {v : Word} {s s' : State} (h : directWrite r n v s = .next s') :
    SameSequencer s s' := by
  rcases directWrite_cases h with ⟨-, hw⟩ | ⟨e, rfl⟩
  · exact of_sameOutside (regWriteBy_same hw)
  · exact haltWith _ _ _ _

theorem emitCommandByte {b : Byte} {s s' : State} (h : emitCommandByte b s = .next s') : SameSequencer s s' := by
  unfold Machine.emitCommandByte at h
  split at h
  · cases h
  · split at h
    · cases h; exact exchange b s
    · cases h; exact refl s

/-- A refused entry of a program raises at issue or at its access (30_encoding.md R313; 20_memory.md R212). -/
theorem rejectInvocation (t : Nat) (inv : Invocation) (s : State) :
    SameSequencer s (rejectInvocation t inv s) := by
  have hissue : ∀ l, some Place.issue ≠ some (.step l) := fun l h => by cases h
  have hnone : ∀ l, none ≠ some (Place.step l) := fun l h => by cases h
  unfold Machine.rejectInvocation
  cases inv with
  | op d x y => exact (emit s _).trans (raise hissue _ _)
  | acc off n dir v =>
    unfold directUnassigned
    cases otherActive t s with
    | some u => exact raise hnone _ s
    | none => exact raise hnone _ s

end SameSequencer

/-! ### Instructions -/

/-- The four shapes an instruction's meaning has: a direct read, a direct write, a command byte on the bus,
the issue of an operation (00_scope.md R2). -/
theorem exec_shape (i : Instr) (s : State) :
    (∃ r n, exec i s = directRead r n s) ∨ (∃ r n v, exec i s = directWrite r n v s) ∨
      (∃ b, exec i s = emitCommandByte b s) ∨
        ∃ isTxd d x y checks ps, exec i s = issue isTxd d x y checks ps s := by
  cases i with
  | rdSpiDr | rdSpiSr | rdSpiCr | rdCsSet | rdCsClr | rdCsState | rdCeSet | rdCeClr | rdCeState | rdCeCfg
  | rdIrqCfg | rdIrqPend | rdTmrCtrl | rdTmrLoad | rdTmrCount | rdTmrIer | rdTmrSr
  | rdDmaSrc0 | rdDmaDst0 | rdDmaCnt0 | rdDmaCtrl0 | rdDmaFlags0
  | rdDmaSrc1 | rdDmaDst1 | rdDmaCnt1 | rdDmaCtrl1 | rdDmaFlags1 | rdDmaIrq =>
    exact .inl ⟨_, _, rfl⟩
  | wrSpiDr | wrSpiSr | wrSpiCr | wrCsSet | wrCsClr | wrCeSet | wrCeClr | wrCeCfg
  | wrIrqCfg | wrIrqPend | wrTmrCtrl | wrTmrLoad | wrTmrIer | wrTmrSr
  | wrDmaSrc0 | wrDmaDst0 | wrDmaCnt0 | wrDmaCtrl0 | wrDmaFlags0
  | wrDmaSrc1 | wrDmaDst1 | wrDmaCnt1 | wrDmaCtrl1 | wrDmaFlags1 | wrDmaIrq =>
    exact .inr (.inl ⟨_, _, _, rfl⟩)
  | wRegister | wTxPayload | flushTx | flushRx => exact .inr (.inr (.inl ⟨_, rfl⟩))
  | rdb | txb | txp | txd | scs | pulse | wreg | waddr | cmd | rstat | send | init =>
    simp only [exec, execRdb, execTxb, execTxp, execTxd, execScs, execPulse, execWreg, execWaddr, execCmd, execRstat,
      execSend, execInit]
    exact .inr (.inr (.inr ⟨_, _, _, _, _, _, rfl⟩))

/-- An instruction leaves the sequencer alone, or starts the current task's operation while none is active
(60_exceptions.md R603). -/
theorem exec_sequencer {i : Instr} {s s' : State} (h : exec i s = .next s') :
    SameSequencer s s' ∨
      (s.active = none ∧ ∃ e top ps, s' = startOperation s.curTask top ps (s.emit e)) := by
  rcases exec_shape i s with ⟨r, n, hi⟩ | ⟨r, n, v, hi⟩ | ⟨b, hi⟩ | ⟨isTxd, d, x, y, checks, ps, hi⟩
  · exact .inl (.directRead (hi ▸ h))
  · exact .inl (.directWrite (hi ▸ h))
  · exact .inl (.emitCommandByte (hi ▸ h))
  · obtain ⟨-, ⟨e, rfl⟩ | ⟨ha, -, rfl⟩⟩ := issue_cases (hi ▸ h)
    · exact .inl ((SameSequencer.emit s _).trans (.raise (fun l hl => by cases hl) _ _))
    · exact .inr ⟨ha, _, _, _, rfl⟩

/-- The shift engine's step is START or an exchange, whichever byte it shifts (42_spi_transport.md R444, R445). -/
theorem shiftStep_sameSequencer {s s' : State} (h : shiftStep s = .next s') : SameSequencer s s' := by
  unfold shiftStep at h
  split at h
  · cases h; exact .of_tasks rfl rfl
  · split at h
    · rw [exec_fcb _ ‹_›] at h
      exact .emitCommandByte h
    · cases h; exact .exchange _ s

/-! ### Steps of an operation -/

/-- What a step of task `t`'s operation can do to the sequencer (10_state.md R106, R107): nothing, as when it
halts; set the task's next step; end the operation. -/
inductive OperationEffect (t : Nat) (s : State) : State → Prop
  | waits {s' : State} (h : SameSequencer s s') : OperationEffect t s s'
  | moves {s1 : State} (h : SameSequencer s s1) (c : Cur) (ps : List Phase) (top : Option Invocation) :
      OperationEffect t s (s1.setCtx t ⟨some c, ps, top⟩)
  | ends {s1 : State} (h : SameSequencer s s1) (code data : Byte) : OperationEffect t s (complete t code data s1)

namespace OperationEffect

theorem after {t : Nat} {s s1 s' : State} (h : SameSequencer s s1) (k : OperationEffect t s1 s') :
    OperationEffect t s s' := by
  cases k with
  | waits k => exact .waits (h.trans k)
  | moves k c ps top => exact .moves (h.trans k) c ps top
  | ends k code data => exact .ends (h.trans k) code data

theorem raise (t : Nat) (p : Option Place) (e : Abnormal) (s : State) : OperationEffect t s (raise t p e s) := by
  rcases raise_cases t p e s with h | ⟨-, -, ⟨l, -, h⟩ | ⟨-, h⟩⟩
  · rw [h]; exact .waits (.haltWith t p e s)
  · rw [h]; exact .ends (.refl s) _ _
  · rw [h]; exact .waits (.reportAtIssue t _ s)

theorem gotoStep (t : Nat) (l : Label) (c : Locals) (s : State) : OperationEffect t s (gotoStep t l c s) :=
  .moves (.refl s) ⟨l, c⟩ _ _

theorem startPhases (t : Nat) (ps : List Phase) (top : Option Invocation) (code data : Byte) (s : State) :
    OperationEffect t s (startPhases t ps top code data s) := by
  rcases startPhases_cases t ps top code data s with h | h | ⟨c, rest, h⟩
  · rw [h]; exact .ends (.refl s) _ _
  · rw [h]; exact .ends (.refl s) _ _
  · rw [h]; exact .moves (.refl s) c rest top

theorem returnOp (t : Nat) (code data : Byte) (s : State) : OperationEffect t s (returnOp t code data s) :=
  startPhases t _ _ code data s

theorem stepRead {t : Nat} {l : Label} {r : Reg} {n : Nat} {k : Word → State → State} {s : State}
    (hk : ∀ v s, OperationEffect t s (k v s)) : OperationEffect t s (stepRead t l r n k s) := by
  unfold Machine.stepRead
  rcases taskRead_cases t r n s with ⟨v, s1, h, hr⟩ | ⟨e, h, -⟩
  · rw [h]; exact after (.of_sameOutside (regReadBy_same hr)) (hk v s1)
  · rw [h]; exact raise t _ e s

theorem stepWrite {t : Nat} {l : Label} {r : Reg} {n : Nat} {v : Word} {k : State → State} {s : State}
    (hk : ∀ s, OperationEffect t s (k s)) : OperationEffect t s (stepWrite t l r n v k s) := by
  unfold Machine.stepWrite
  rcases taskWrite_cases t r n v s with ⟨s1, h, -, hw⟩ | ⟨e, h, -⟩
  · rw [h]; exact after (.of_sameOutside (regWriteBy_same hw)) (hk s1)
  · rw [h]; exact raise t _ e s

theorem stepMemRead {t : Nat} {l : Label} {a : Word} {k : Byte → State → State} {s : State}
    (hk : ∀ b s, OperationEffect t s (k b s)) : OperationEffect t s (stepMemRead t l a k s) := by
  unfold Machine.stepMemRead
  rcases taskMemRead_cases t a s with ⟨-, h⟩ | ⟨-, h⟩
  · rw [h]; exact after (.emit s _) (hk _ _)
  · rw [h]; exact raise t _ _ s

theorem stepMemWrite {t : Nat} {l : Label} {a : Word} {b : Byte} {k : State → State} {s : State}
    (hk : ∀ s, OperationEffect t s (k s)) : OperationEffect t s (stepMemWrite t l a b k s) := by
  unfold Machine.stepMemWrite
  rcases taskMemWrite_cases t a b s with ⟨-, h⟩ | ⟨-, h⟩
  · rw [h]; exact after (.trans (.setMem _ s) (.emit _ _)) (hk _)
  · rw [h]; exact raise t _ _ s

theorem stepLength {t : Nat} {l : Label} {n : Nat} {k : Nat → State → State} {s : State}
    (hk : ∀ x s, OperationEffect t s (k x s)) : OperationEffect t s (stepLength t l n k s) := by
  unfold Machine.stepLength
  split
  · exact raise t _ _ s
  · split
    · exact raise t _ _ s
    · exact hk _ s

/-! The shapes most numbered steps have: one access, then the next label or the return. -/

theorem readThenGoto {t : Nat} {l : Label} {r : Reg} {n : Nat} {l' : Label} {c : Word → Locals} {s : State} :
    OperationEffect t s (Machine.stepRead t l r n (fun v => Machine.gotoStep t l' (c v)) s) :=
  stepRead fun _ s => gotoStep t _ _ s

theorem writeThenGoto {t : Nat} {l l' : Label} {r : Reg} {n : Nat} {v : Word} {c : Locals} {s : State} :
    OperationEffect t s (Machine.stepWrite t l r n v (Machine.gotoStep t l' c) s) :=
  stepWrite fun s => gotoStep t l' c s

theorem writeThenReturn {t : Nat} {l : Label} {r : Reg} {n : Nat} {v : Word} {code data : Byte} {s : State} :
    OperationEffect t s (Machine.stepWrite t l r n v (Machine.returnOp t code data) s) :=
  stepWrite fun s => returnOp t code data s

/-- The step that fetches the byte it transmits: read memory, write SPI_DR, go to the next label. -/
theorem fetchThenGoto {t : Nat} {l l' : Label} {a : Word} {r : Reg} {n : Nat} {c : Locals} {s : State} :
    OperationEffect t s (Machine.stepMemRead t l a
      (fun b => Machine.stepWrite t l r n (byteWord b) (Machine.gotoStep t l' c)) s) :=
  stepMemRead fun _ _ => writeThenGoto

theorem stepCopy (t i : Nat) (c : Locals) (s : State) : OperationEffect t s (stepCopy t i c s) := by
  have hstore : ∀ b s, OperationEffect t s (Machine.stepMemWrite t (.copy i) (addrAdd c.dst i) b (fun s =>
      if i + 1 < c.n then Machine.gotoStep t (.copy (i + 1)) c s
      else Machine.returnOp t codeOk 0x00#8 s) s) := by
    intro b s
    refine stepMemWrite fun s => ?_
    split
    · exact gotoStep t _ _ s
    · exact returnOp t _ _ s
  simp only [Machine.stepCopy]
  split
  · exact hstore _ s
  · exact stepMemRead hstore

theorem stepRdb (t : Nat) (l : RdbLabel) (c : Locals) (s : State) : OperationEffect t s (stepRdb t l c s) := by
  unfold Machine.stepRdb
  cases l with
  | r0 => exact readThenGoto
  | r1 => exact stepRead fun _ s => returnOp t _ _ s

theorem stepTxb (t : Nat) (l : TxbLabel) (c : Locals) (s : State) : OperationEffect t s (stepTxb t l c s) := by
  unfold Machine.stepTxb
  cases l with
  | b0 | b3 | b4 => exact readThenGoto
  | b1 | b2 | b5 => exact writeThenGoto
  | b6 => exact returnOp t _ _ s

theorem stepTxp (t : Nat) (l : TxpLabel) (c : Locals) (s : State) : OperationEffect t s (stepTxp t l c s) := by
  unfold Machine.stepTxp
  cases l with
  | p0 => exact stepLength fun _ s => gotoStep t _ _ s
  | p1 | p5 | p7 | p9 => exact readThenGoto
  | p2 | p3 | p4 | p10 | p11 => exact writeThenGoto
  | p6 => exact fetchThenGoto
  | p8 => exact stepRead fun _ _ => stepMemWrite fun s => gotoStep t _ _ s
  | p12 => exact returnOp t _ _ s

theorem stepTxd (t : Nat) (l : TxdLabel) (c : Locals) (s : State) : OperationEffect t s (stepTxd t l c s) := by
  unfold Machine.stepTxd
  cases l with
  | d0 => exact stepLength fun _ s => gotoStep t _ _ s
  | d1 =>
    dsimp only
    split
    · exact raise t _ _ s
    · exact after (.setOwner (some t) s) (gotoStep t _ _ _)
  | d2 | d3 | d4 | d5 | d6 | d7 | d8 | d9 | d10 | d11 | d12 | d15 | d16 | d18 | d19 | d20 | d21 | d22
  | t0 | t1 | t2 | t6 | t7 | t8 | t9 => exact writeThenGoto
  | d13 | t4 => exact readThenGoto
  | d14 => exact fetchThenGoto
  | d17 => exact after (.setNotify t 0 s) (gotoStep t _ _ (s.setNotify t 0))
  | d23 =>
    dsimp only
    split
    · exact raise t _ _ s
    · exact returnOp t _ _ s
  | t3 => exact stepWrite fun s => after (.trans (.setOwner none s) (.setNotify t 0 _)) (gotoStep t _ _ _)
  | t5 =>
    dsimp only
    split
    · exact readThenGoto
    · exact gotoStep t _ _ s
  | t10 => exact raise t _ _ s

theorem stepPulse (t : Nat) (l : PulseLabel) (c : Locals) (s : State) :
    OperationEffect t s (stepPulse t l c s) := by
  unfold Machine.stepPulse
  cases l with
  | tp0 =>
    dsimp only
    split
    · exact raise t _ _ s
    · exact writeThenGoto
  | tp1 => exact writeThenGoto
  | tp2 => exact readThenGoto
  | tp3 => exact writeThenReturn

theorem stepInitIO (t : Nat) (l : InitLabel) (c : Locals) (s : State) :
    OperationEffect t s (stepInitIO t l c s) := by
  unfold Machine.stepInitIO
  cases l with
  | i0 | i1 => exact writeThenGoto
  | i2 => exact writeThenReturn

/-- Every step of an operation (10_state.md R106). -/
theorem operationStep (t : Nat) (c : Cur) (s : State) : OperationEffect t s (operationStep t c s) := by
  obtain ⟨label, loc⟩ := c
  cases label with
  | rdb l => exact stepRdb t l loc s
  | txb l => exact stepTxb t l loc s
  | txp l => exact stepTxp t l loc s
  | txd l => exact stepTxd t l loc s
  | scs => exact writeThenReturn
  | pulse l => exact stepPulse t l loc s
  | initIO l => exact stepInitIO t l loc s
  | copy i => exact stepCopy t i loc s

/-- The notification timeout ends the wait: TransferTimedOut, or the abort's first step (43_dma_engine.md R503). -/
theorem timeoutStep (t : Nat) (s : State) : OperationEffect t s (timeoutStep t s) := by
  refine after (.emit s (.timeout t)) ?_
  unfold Machine.timeoutStep
  cases s.par.errorPolicy with
  | fatal => exact raise t _ _ _
  | report =>
    cases (s.taskAt t).ctx.cur with
    | none => exact .waits (.refl _)
    | some c => exact gotoStep t _ _ _

end OperationEffect

end Sys2Proof.Safety
end

section
/-! PROOF. O55: the active task is exactly the one task with an operation in progress. -/

namespace Sys2Proof.Safety

open Sys2Proof.Machine

theorem serialInv_of_sameSequencer {s s' : State} (h : SameSequencer s s') (hi : serialInv s) : serialInv s' := by
  intro u
  rw [h.active, h.ctx u]
  exact hi u

/-- No operation but task `t`'s may be in progress: `t` exists and is active, every other task is idle. -/
structure SoleTask (t : Nat) (s : State) : Prop where
  isTask : t < s.tasks.length
  active : s.active = some t
  others : ∀ u, u ≠ t → (s.taskAt u).ctx = Ctx.idle

theorem soleTask_of_sameSequencer {t : Nat} {s s' : State} (h : SameSequencer s s') (hs : SoleTask t s) :
    SoleTask t s' :=
  ⟨h.length ▸ hs.isTask, h.active.trans hs.active, fun u hu => (h.ctx u).trans (hs.others u hu)⟩

/-- A number with a next step or a program entry is a task. -/
theorem isTask_of_taskAt_ne {t : Nat} {s : State} (h : s.taskAt t ≠ TaskState.launch []) : t < s.tasks.length :=
  Nat.lt_of_not_le fun hle => h (taskAt_of_length_le s hle)

/-- Where the invariant holds, every task but the active one is idle. -/
theorem serialInv_idle {s : State} (hi : serialInv s) {u : Nat} (hu : s.active ≠ some u) :
    (s.taskAt u).ctx = Ctx.idle := by
  obtain ⟨hactive, hidle⟩ := hi u
  exact hidle (by simpa using mt hactive.mpr hu)

/-- A task in its operation is the only one in an operation. -/
theorem soleTask_of_cur {t : Nat} {c : Cur} {s : State} (hi : serialInv s) (hc : (s.taskAt t).ctx.cur = some c) :
    SoleTask t s := by
  have hactive : s.active = some t := (hi t).1.mpr (by simp [hc])
  refine ⟨isTask_of_taskAt_ne fun h => ?_, hactive, fun u hu => serialInv_idle hi ?_⟩
  · rw [h] at hc; cases hc
  · rw [hactive]
    exact fun he => hu (Option.some.inj he).symm

/-- With a next step set, the active task is the one in an operation. -/
theorem serialInv_setCtx {t : Nat} {s : State} (hs : SoleTask t s) (c : Cur) (ps : List Phase)
    (top : Option Invocation) : serialInv (s.setCtx t ⟨some c, ps, top⟩) := by
  intro u
  by_cases hu : u = t
  · subst hu
    rw [ctx_setCtx_same s _ hs.isTask, setCtx_active, hs.active]
    exact ⟨by simp, fun h => by cases h⟩
  · rw [taskAt_setCtx_ne s _ hu, hs.others u hu, setCtx_active, hs.active]
    exact ⟨⟨fun h => absurd (Option.some.inj h).symm hu, fun h => by cases h⟩, fun _ => rfl⟩

/-- With the operation ended, no task is active and every context is idle (10_state.md R107). -/
theorem serialInv_complete {t : Nat} {s : State} (hs : SoleTask t s) (code data : Byte) :
    serialInv (complete t code data s) := by
  intro u
  have hidle : ((complete t code data s).taskAt u).ctx = Ctx.idle := by
    show (((s.setResult t code data).setCtx t Ctx.idle).taskAt u).ctx = Ctx.idle
    by_cases hu : u = t
    · subst hu
      exact ctx_setCtx_same _ _ (by rw [setResult_length]; exact hs.isTask)
    · rw [taskAt_setCtx_ne _ _ hu, ctx_setResult]
      exact hs.others u hu
  have hactive : (complete t code data s).active = none := rfl
  rw [hactive, hidle]
  exact ⟨⟨nofun, nofun⟩, fun _ => rfl⟩

/-- Whatever a step of the operation in progress does to the sequencer keeps the invariant. -/
theorem serialInv_operationEffect {t : Nat} {c : Cur} {s s' : State} (hi : serialInv s)
    (hc : (s.taskAt t).ctx.cur = some c) (h : OperationEffect t s s') : serialInv s' := by
  have hs := soleTask_of_cur hi hc
  cases h with
  | waits h => exact serialInv_of_sameSequencer h hi
  | moves h c ps top => exact serialInv_setCtx (soleTask_of_sameSequencer h hs) c ps top
  | ends h code data => exact serialInv_complete (soleTask_of_sameSequencer h hs) code data

/-- An operation that starts while none is active becomes the one in progress, or ends at once
(60_exceptions.md R603; 44_frame_sequencer.md R521). -/
theorem serialInv_startOperation {t : Nat} {s : State} (hi : serialInv s) (ha : s.active = none)
    (ht : t < s.tasks.length) (top : Invocation) (ps : List Phase) :
    serialInv (startOperation t top ps s) := by
  have hs : SoleTask t (s.setActive (some t)) :=
    ⟨ht, rfl, fun u _ => serialInv_idle hi (by rw [ha]; exact nofun)⟩
  unfold startOperation
  rcases startPhases_cases t ps (some top) codeOk 0x00#8 (s.setActive (some t)) with h | h | ⟨c, rest, h⟩
  · rw [h]; exact serialInv_complete hs _ _
  · rw [h]; exact serialInv_complete hs _ _
  · rw [h]; exact serialInv_setCtx hs c rest _

/-- An instruction of an existing task keeps the invariant. -/
theorem serialInv_exec {i : Instr} {s s' : State} (ht : s.curTask < s.tasks.length) (hi : serialInv s)
    (h : exec i s = .next s') : serialInv s' := by
  rcases exec_sequencer h with hsame | ⟨ha, e, top, ps, rfl⟩
  · exact serialInv_of_sameSequencer hsame hi
  · exact serialInv_startOperation (s := s.emit e) hi ha ht top ps

/-- An entry of a program that is executed or refused keeps the invariant. -/
theorem serialInv_invoke {t : Nat} {inv : Invocation} {rest : List Invocation} {s s' : State}
    (ht : t < s.tasks.length) (hi : serialInv s) (h : invoke t inv rest s = .next s') : serialInv s' := by
  have hi1 : serialInv ((s.setCurTask t).setProg t rest) :=
    serialInv_of_sameSequencer (.setProg t rest _) (show serialInv (s.setCurTask t) from hi)
  unfold invoke at h
  split at h
  · exact serialInv_exec (by rw [setProg_length]; exact ht) hi1 h
  · cases h
    exact serialInv_of_sameSequencer (.rejectInvocation t inv _) hi1

theorem serialInv_taskStep {t : Nat} {s s' : State} (hi : serialInv s) (h : taskStep t s = .next s') :
    serialInv s' := by
  unfold taskStep at h
  split at h
  · rename_i c hc
    cases h
    exact serialInv_operationEffect (s := s.setCurTask t) hi hc (.operationStep t c _)
  · split at h
    · rename_i inv rest hprog
      refine serialInv_invoke (isTask_of_taskAt_ne fun hl => ?_) hi h
      rw [hl] at hprog; cases hprog
    · cases h; exact hi

/-- The timeout of task `t` is enabled only at its notification wait, so in its operation
(43_dma_engine.md R503). -/
theorem serialInv_timeoutStep {t : Nat} {s : State} (he : timeoutEnabled t s = true) (hi : serialInv s) :
    serialInv (timeoutStep t s) := by
  cases hc : (s.taskAt t).ctx.cur with
  | none => simp [timeoutEnabled, waiting, hc] at he
  | some c => exact serialInv_operationEffect hi hc (.timeoutStep t s)

theorem serialInv_turn {a : Agent} {s s' : State} (hi : serialInv s) (h : turn a s = .next s') : serialInv s' := by
  by_cases he : enabled a s = true
  · rw [turn_on he] at h
    cases a with
    | task t => exact serialInv_taskStep hi h
    | shift => exact serialInv_of_sameSequencer (shiftStep_sameSequencer h) hi
    | dma n => cases h; exact serialInv_of_sameSequencer (.dmaTransfer n s) hi
    | timer => cases h; exact hi
    | dmaHandler => cases h; exact serialInv_of_sameSequencer (.dmaHandlerStep s) hi
    | irqHandler => cases h; exact serialInv_of_sameSequencer (.trans (.handlerWrite _ _ _ s) (.emit _ _)) hi
    | ovfHandler => cases h; exact hi
    | device => cases h; exact serialInv_of_sameSequencer (.pinStep s) hi
    | timeout t => cases h; exact serialInv_timeoutStep he hi
  · rw [turn_off (by simpa using he)] at h
    cases h; exact hi

/-- Settles O55: the agent that gets the turn keeps the invariant, whichever it is. -/
theorem serialInvariant : Obligations.SerialInvariant := by
  unfold Obligations.SerialInvariant
  intro s s' hi h
  unfold step oneStep at h
  split at h
  · split at h
    · cases h
    · exact serialInv_turn (serialInv_of_sameSequencer (.drawAgent s) hi) h
  · cases h

end Sys2Proof.Safety
end

section
/-! PROOF. O53: data memory stays in canonical form and lists admitted addresses only. A store puts one byte, at an admitted address, and nothing else touches the bytes (20_memory.md R201, R206, R225). -/

namespace Sys2Proof.Safety

open Sys2Proof.Machine

/-- A write lists no byte but the one it stores. -/
theorem eq_or_mem_of_mem_memPut {m : Memory} {a : Nat} {b : Byte} {c : Host.Cell} (h : c ∈ memPut m a b) :
    c = (a, b) ∨ c ∈ m := by
  induction m with
  | nil =>
    by_cases hb : b = memDefault
    · simp [memPut, hb] at h
    · exact .inl (by simpa [memPut, hb] using h)
  | cons d r ih =>
    obtain ⟨k, x⟩ := d
    simp only [memPut] at h
    split at h
    · split at h
      · exact .inr h
      · exact List.mem_cons.mp h
    · split at h
      · split at h
        · exact .inr (List.mem_cons_of_mem _ h)
        · exact (List.mem_cons.mp h).imp_right (List.mem_cons_of_mem _)
      · rcases List.mem_cons.mp h with rfl | hr
        · exact .inr List.mem_cons_self
        · exact (ih hr).imp_right (List.mem_cons_of_mem _)

/-- A byte stored at an admitted address keeps the invariant. -/
theorem memInv_memPut {s : State} {addr : Word} (hadm : admitted s.par addr = true) (b : Byte) (h : memInv s) :
    memInv (s.setMem (memPut s.mem addr.toNat b)) := by
  obtain ⟨hwf, hall⟩ := h
  refine ⟨memWf_memPut addr b hwf, fun c hc => ?_⟩
  rcases eq_or_mem_of_mem_memPut hc with rfl | hold
  · simpa using hadm
  · exact hall c hold

theorem memInv_of_sameOutside {s s' : State} (h : SameOutside s s') (hi : memInv s) : memInv s' := by
  unfold memInv
  rw [h.mem, h.par]
  exact hi

theorem memInv_memRead {a : Agent} {addr : Word} {s s' : State} {v : Byte}
    (h : memRead a addr s = some (v, s')) (hi : memInv s) : memInv s' := by
  obtain ⟨-, -, rfl⟩ := memRead_spec h
  exact hi

theorem memInv_memWrite {a : Agent} {addr : Word} {v : Byte} {s s' : State}
    (h : memWrite a addr v s = some s') (hi : memInv s) : memInv s' := by
  obtain ⟨hadm, rfl⟩ := memWrite_spec h
  exact memInv_memPut hadm v hi

theorem memInv_exchange (b : Byte) {s : State} (hi : memInv s) : memInv (exchange b s) := by
  obtain ⟨d, m, he⟩ := exchange_eq b s
  rw [he]
  exact hi

/-- A channel stores through `memWrite` only; its own registers are no data memory (43_dma_engine.md R486-R488). -/
theorem memInv_dmaTransfer (n : Chan) {s : State} (hi : memInv s) : memInv (dmaTransfer n s) :=
  dmaTransfer_keeps (fun h => memInv_of_sameOutside (regReadBy_same h))
    (fun _ h => memInv_of_sameOutside (regWriteBy_same h)) memInv_memRead memInv_memWrite
    (fun s d _ => memInv_of_sameOutside (.setDma s n d))
    (fun s d => memInv_of_sameOutside ((SameOutside.setDma s n d).trans (dmaComplete_same n _))) hi

/-- Every named operation of a step keeps data memory canonical and inside ADMIT; only `memWrite` and a
channel's transfer store a byte. -/
theorem memInv_closed : Closed fun s s' => memInv s → memInv s' where
  refl _ h := h
  trans f g h := g (f h)
  progress _ _ _ h := h
  task _ _ _ h := h
  active _ _ h := h
  owner _ _ h := h
  halted _ _ h := h
  draws _ _ h := h
  curTask _ _ h := h
  regRead h := memInv_of_sameOutside (regReadBy_same h)
  regWrite _ h := memInv_of_sameOutside (regWriteBy_same h)
  memRead := memInv_memRead
  memWrite := memInv_memWrite
  start _ _ h := h
  finish b _ _ := memInv_exchange b
  transfer n _ _ := memInv_dmaTransfer n
  tick _ _ h := h
  ovfHandler _ h := h
  pin s h := by
    obtain ⟨d, q, hp⟩ := pinStep_eq s
    rw [hp]
    exact h

/-- Settles O53: each named operation keeps the invariant, so every step does. -/
theorem memoryInvariant : Obligations.MemoryInvariant := by
  unfold Obligations.MemoryInvariant
  intro s s' hi hstep
  exact memInv_closed.step hstep hi

end Sys2Proof.Safety
end

section
/-! PROOF. O16: a task's direct access is refused exactly under the four checks of R212. The statement's checks speak of offsets, the model's of registers, so each check is first said of the register at the offset; then the step of an access is the task's read or write of that register (20_memory.md R210-R212; 60_exceptions.md R606). -/

namespace Sys2Proof.Safety

open Sys2Proof.Machine

/-! ### The four checks, by register -/

/-- Two registers at one offset are one register (10_state.md R136). -/
theorem regOffset_inj {r r' : Reg} : regOffset r = regOffset r' ↔ r = r' :=
  ⟨fun h => Option.some.inj (by rw [← regAt_regOffset r, h, regAt_regOffset]), congrArg regOffset⟩

/-- Check 1: an offset is assigned exactly when a register stands there. -/
theorem mem_assignedOffsets_iff : ∀ off : Byte, off ∈ assignedOffsets ↔ regAt off ≠ none := by decide

/-- Check 2: a word access, or a byte access at offset 0x00. -/
theorem regSizeOk_eq_false_iff (r : Reg) (n : Nat) :
    regSizeOk r n = false ↔ n ≠ 4 ∧ ¬(n = 1 ∧ regOffset r = 0x00#8) := by
  have hdr : regOffset r = 0x00#8 ↔ r = .spiDr := regOffset_inj (r' := .spiDr)
  simp [regSizeOk, hdr]

/-- Check 3: CS_STATE, CE_STATE and TMR_COUNT. -/
theorem regReadOnly_iff (r : Reg) :
    regReadOnly r = true ↔ regOffset r = 0x18#8 ∨ regOffset r = 0x28#8 ∨ regOffset r = 0x48#8 := by
  have hcs : regOffset r = 0x18#8 ↔ r = .csState := regOffset_inj (r' := .csState)
  have hce : regOffset r = 0x28#8 ↔ r = .ceState := regOffset_inj (r' := .ceState)
  have htmr : regOffset r = 0x48#8 ↔ r = .tmrCount := regOffset_inj (r' := .tmrCount)
  simp [regReadOnly, hcs, hce, htmr, or_assoc]

/-- A write of DMA_CTRL changes the configuration bits exactly when one of the three differs. -/
theorem dmaCtrlChanges_iff (v : Word) (d : DmaChan) :
    dmaCtrlChanges v d = true ↔ (v.getLsbD 1, v.getLsbD 2, v.getLsbD 3) ≠ (d.sinc, d.dinc, d.ie) := by
  simp only [dmaCtrlChanges, bitOf, Bool.or_eq_true, bne_iff_ne, ne_eq, Prod.mk.injEq]
  tauto

/-- Check 4 for one channel: the registers it speaks of. -/
theorem configuresRunning_iff (n : Chan) (d : DmaChan) (r : Reg) (v : Word) :
    configuresRunning (chanBase n) d (regOffset r) v ↔
      d.en = true ∧ (r = .dmaSrc n ∨ r = .dmaDst n ∨ r = .dmaCnt n ∨
        (r = .dmaCtrl n ∧ dmaCtrlChanges v d = true)) := by
  have hsrc : regOffset r = chanBase n ↔ r = .dmaSrc n := regOffset_inj (r' := .dmaSrc n)
  have hdst : regOffset r = chanBase n + 4 ↔ r = .dmaDst n := regOffset_inj (r' := .dmaDst n)
  have hcnt : regOffset r = chanBase n + 8 ↔ r = .dmaCnt n := regOffset_inj (r' := .dmaCnt n)
  have hctrl : regOffset r = chanBase n + 0xC ↔ r = .dmaCtrl n := regOffset_inj (r' := .dmaCtrl n)
  rw [configuresRunning, hsrc, hdst, hcnt, hctrl, dmaCtrlChanges_iff]

/-- Check 4: the register belongs to a running channel that the write would configure. -/
theorem regDmaBusy_iff (r : Reg) (v : Word) (s : State) :
    regDmaBusy r v s = true ↔
      configuresRunning 0x80#8 s.dma0 (regOffset r) v ∨ configuresRunning 0xA0#8 s.dma1 (regOffset r) v := by
  rw [show configuresRunning 0x80#8 = configuresRunning (chanBase .ch0) from rfl,
    show configuresRunning 0xA0#8 = configuresRunning (chanBase .ch1) from rfl,
    configuresRunning_iff, configuresRunning_iff]
  cases r with
  | dmaSrc n | dmaDst n | dmaCnt n | dmaCtrl n => cases n <;> simp [regDmaBusy]
  | _ => simp [regDmaBusy]

/-! ### Refusals, by register -/

/-- An access at an offset without a register is refused. -/
theorem accessRefused_of_unassigned {off : Byte} (h : regAt off = none) (n : Nat) (dir : Dir) (v : Word) (s : State) :
    accessRefused off n dir v s :=
  .inl fun hmem => (mem_assignedOffsets_iff off).mp hmem h

theorem regOffset_mem_assignedOffsets (r : Reg) : regOffset r ∈ assignedOffsets :=
  (mem_assignedOffsets_iff _).mpr (by simp)

/-- A read is refused for its size only. -/
theorem accessRefused_read_iff (r : Reg) (n : Nat) (v : Word) (s : State) :
    accessRefused (regOffset r) n .read v s ↔ regSizeOk r n = false := by
  simp [accessRefused, regOffset_mem_assignedOffsets, regSizeOk_eq_false_iff]

/-- A write is refused exactly when it fails the checks of `regWriteOk`. -/
theorem accessRefused_write_iff (r : Reg) (n : Nat) (v : Word) (s : State) :
    accessRefused (regOffset r) n .write v s ↔ regWriteOk r n v s = false := by
  have hchecks : regWriteOk r n v s = false ↔
      regSizeOk r n = false ∨ regReadOnly r = true ∨ regDmaBusy r v s = true := by
    simp only [regWriteOk, Bool.and_eq_false_iff, Bool.not_eq_false', or_assoc]
  rw [hchecks, regSizeOk_eq_false_iff, regReadOnly_iff, regDmaBusy_iff]
  simp [accessRefused, regOffset_mem_assignedOffsets]

/-! ### The instruction of an access -/

theorem exec_readInstr (r : Reg) (n : Nat) (s : State) : exec (readInstr n r) s = directRead r n s := by
  cases r with
  | dmaSrc c | dmaDst c | dmaCnt c | dmaCtrl c | dmaFlags c => cases c <;> rfl
  | _ => rfl

/-- A register has no write instruction exactly when it is read-only (30_encoding.md R303). -/
theorem writeInstr_eq_none_iff (n : Nat) (v : Word) (r : Reg) : writeInstr n v r = none ↔ regReadOnly r = true := by
  cases r with
  | dmaSrc c | dmaDst c | dmaCnt c | dmaCtrl c | dmaFlags c => cases c <;> simp [writeInstr, regReadOnly]
  | _ => simp [writeInstr, regReadOnly]

theorem exec_writeInstr {r : Reg} {n : Nat} {v : Word} {i : Instr} (h : writeInstr n v r = some i) (s : State) :
    exec i s = directWrite r n v s := by
  cases r with
  | csState | ceState | tmrCount => cases h
  | dmaSrc c | dmaDst c | dmaCnt c | dmaCtrl c | dmaFlags c => cases c <;> (cases h; rfl)
  | _ => cases h; rfl

/-! ### The step of an access that no other task's operation shuts out -/

theorem directUnassigned_open {t : Nat} {s : State} (off : Byte) (ha : s.active = none ∨ s.active = some t) :
    directUnassigned t off s = haltWith t none (.badRegisterAccess off) s := by
  rw [directUnassigned, otherActive_none ha]
  rfl

/-- The state in which task `t` executes the entry it took: its program advanced, the task current
(60_exceptions.md R606). -/
def taken (t : Nat) (rest : List Invocation) (s : State) : State := onTask t { s.taskAt t with prog := rest } s

theorem setProg_setCurTask (t : Nat) (rest : List Invocation) (s : State) :
    (s.setCurTask t).setProg t rest = taken t rest s := rfl

theorem invoke_unassigned {t : Nat} {off : Byte} {s : State} (hoff : regAt off = none)
    (ha : s.active = none ∨ s.active = some t) (n : Nat) (dir : Dir) (v : Word) (rest : List Invocation) :
    invoke t (.acc off n dir v) rest s =
      .next (haltWith t none (.badRegisterAccess off) (taken t rest s)) := by
  have hdec : decode (invocationWords (.acc off n dir v)) = .error (.unassignedAccess (accessCode dir off)) := by
    simp [invocationWords, decode, decodeRac, hoff]
  have hhalt : rejectInvocation t (.acc off n dir v) (taken t rest s) =
      haltWith t none (.badRegisterAccess off) (taken t rest s) := directUnassigned_open off ha
  rw [← hhalt, invoke, hdec, setProg_setCurTask]

theorem invoke_read (t : Nat) (r : Reg) (n : Nat) (v : Word) (rest : List Invocation) (s : State) :
    invoke t (.acc (regOffset r) n .read v) rest s = directRead r n (taken t rest s) := by
  have hdec : decode (invocationWords (.acc (regOffset r) n .read v)) = .ok (readInstr n r) := by
    simp [invocationWords, decode, decodeRac]
  rw [invoke, hdec, setProg_setCurTask]
  exact exec_readInstr r n _

theorem decode_write (r : Reg) (n : Nat) (v : Word) :
    decode (invocationWords (.acc (regOffset r) n .write v)) =
      ((writeInstr n v r).elim (.error (.unassignedAccess (accessCode .write (regOffset r)))) .ok) := by
  simp only [invocationWords, decode, decodeRac, codeOffset_accessCode, codeDir_accessCode, regAt_regOffset]
  cases writeInstr n v r <;> rfl

/-- A write of a read-only register, which no instruction encodes, halts as the direct write of it would. -/
theorem invoke_write {t : Nat} {s : State} (hh : s.halted = none) (ha : s.active = none ∨ s.active = some t)
    (r : Reg) (n : Nat) (v : Word) (rest : List Invocation) :
    invoke t (.acc (regOffset r) n .write v) rest s = directWrite r n v (taken t rest s) := by
  rw [invoke, decode_write, setProg_setCurTask]
  cases hw : writeInstr n v r with
  | some i => exact exec_writeInstr hw _
  | none =>
    have hro : regReadOnly r = true := (writeInstr_eq_none_iff n v r).mp hw
    have hhalt : rejectInvocation t (.acc (regOffset r) n .write v) (taken t rest s) =
        haltWith t none (.badRegisterAccess (regOffset r)) (taken t rest s) := directUnassigned_open _ ha
    rw [directWrite_refused (s := taken t rest s) hh ha (by simp [regWriteOk, hro])]
    exact congrArg Host.Outcome.next hhalt

/-- A direct read of an accepted size is done, or faults otherwise than by BadRegisterAccess. -/
theorem directRead_accepted {r : Reg} {n : Nat} {s : State} (hh : s.halted = none)
    (ha : s.active = none ∨ s.active = some s.curTask) (hn : regSizeOk r n = true) (off : Byte) :
    ∃ s', directRead r n s = .next s' ∧ s'.halted ≠ some (.badRegisterAccess off) := by
  rw [directRead_open hh ha, taskRead, if_pos hn]
  cases hr : regReadBy (.task s.curTask) r n s with
  | none => exact ⟨_, rfl, by rw [raise_fault rfl]; exact nofun⟩
  | some p => exact ⟨p.2, rfl, by rw [(regReadBy_same hr).halted, hh]; exact nofun⟩

/-- A direct write that passes the checks is done, or faults otherwise than by BadRegisterAccess. -/
theorem directWrite_accepted {r : Reg} {n : Nat} {v : Word} {s : State} (hh : s.halted = none)
    (ha : s.active = none ∨ s.active = some s.curTask) (hn : regWriteOk r n v s = true) (off : Byte) :
    ∃ s', directWrite r n v s = .next s' ∧ s'.halted ≠ some (.badRegisterAccess off) := by
  rw [directWrite_open hh ha, taskWrite, if_pos hn]
  cases hw : regWriteBy (.task s.curTask) r n v s with
  | none => exact ⟨_, rfl, by rw [raise_fault rfl]; exact nofun⟩
  | some s1 => exact ⟨s1, rfl, by rw [(regWriteBy_same hw).halted, hh]; exact nofun⟩

/-- Settles O16: an offset without a register is refused, and at a register's offset the four checks are
those of the task's read or write, which do not look at the task that makes it. -/
theorem refusedAccesses : Obligations.RefusedAccesses := by
  unfold Obligations.RefusedAccesses
  intro s t off n dir v rest hrun habout ha
  have hh : (taken t rest s).halted = none := hrun.2
  have ha' : (taken t rest s).active = none ∨ (taken t rest s).active = some (taken t rest s).curTask := ha
  rw [runs_single hrun, turn_idle habout]
  cases hoff : regAt off with
  | none =>
    exact ⟨fun _ => invoke_unassigned hoff ha n dir v rest,
      fun hpass => absurd (accessRefused_of_unassigned hoff n dir v s) hpass⟩
  | some r =>
    obtain rfl := regAt_some off r hoff
    cases dir with
    | read =>
      rw [invoke_read, accessRefused_read_iff, Bool.not_eq_false]
      exact ⟨directRead_size hh ha', fun hn => directRead_accepted hh ha' hn _⟩
    | write =>
      rw [invoke_write hrun.2 ha, accessRefused_write_iff, Bool.not_eq_false]
      exact ⟨directWrite_refused hh ha', fun hn => directWrite_accepted hh ha' hn _⟩

end Sys2Proof.Safety
end

section
/-! PROOF. O51: an instruction stores no byte of data memory and moves no program. A register access touches registers and lines, an exchange the SPI data path, an issue the sequencer's context and result (20_memory.md R206, R210; 60_exceptions.md R603). -/

namespace Sys2Proof.Safety

open Sys2Proof.Machine

/-- A task's fields replaced under the same program leave every program as it was. -/
theorem prog_setTask (s : State) {t : Nat} {k : TaskState} (hk : k.prog = (s.taskAt t).prog) (u : Nat) :
    ((s.setTask t k).taskAt u).prog = (s.taskAt u).prog := by
  by_cases hl : t < s.tasks.length
  · by_cases hu : u = t
    · rw [hu, taskAt_setTask_same s k hl, hk]
    · rw [taskAt_setTask_ne s k hu]
  · rw [setTask_of_length_le s k (Nat.le_of_not_lt hl)]

/-- Data memory, the launch parameters and every program are as before. -/
structure SameStore (s s' : State) : Prop where
  mem : s'.mem = s.mem
  par : s'.par = s.par
  prog : ∀ u, (s'.taskAt u).prog = (s.taskAt u).prog

namespace SameStore

theorem refl (s : State) : SameStore s s := ⟨rfl, rfl, fun _ => rfl⟩

theorem trans {a b c : State} (h : SameStore a b) (k : SameStore b c) : SameStore a c :=
  ⟨k.mem.trans h.mem, k.par.trans h.par, fun u => (k.prog u).trans (h.prog u)⟩

theorem of_sameOutside {s s' : State} (h : SameOutside s s') : SameStore s s' :=
  ⟨h.mem, h.par, fun u => by rw [State.taskAt, h.tasks]; rfl⟩

theorem emit (s : State) (e : Event) : SameStore s (s.emit e) := of_sameOutside (.emit s e)

theorem setActive (a : Option Nat) (s : State) : SameStore s (s.setActive a) := ⟨rfl, rfl, fun _ => rfl⟩

theorem setCtx (t : Nat) (c : Ctx) (s : State) : SameStore s (s.setCtx t c) := ⟨rfl, rfl, prog_setTask s rfl⟩

theorem setResult (t : Nat) (code data : Byte) (s : State) : SameStore s (s.setResult t code data) :=
  ⟨rfl, rfl, prog_setTask s rfl⟩

theorem haltWith (t : Nat) (p : Option Place) (e : Abnormal) (s : State) : SameStore s (haltWith t p e s) :=
  ⟨rfl, rfl, fun _ => rfl⟩

theorem complete (t : Nat) (code data : Byte) (s : State) : SameStore s (complete t code data s) :=
  (setResult t code data s).trans ((setCtx t Ctx.idle _).trans ((setActive none _).trans (emit _ _)))

theorem reportAtIssue (t : Nat) (code : Byte) (s : State) : SameStore s (reportAtIssue t code s) :=
  (setResult t code 0x00#8 s).trans (emit _ _)

theorem raise (t : Nat) (p : Option Place) (e : Abnormal) (s : State) : SameStore s (raise t p e s) := by
  rcases raise_cases t p e s with h | ⟨-, -, ⟨l, -, h⟩ | ⟨-, h⟩⟩
  · rw [h]; exact haltWith t p e s
  · rw [h]; exact complete t _ _ s
  · rw [h]; exact reportAtIssue t _ s

/-- The start of an operation runs none of its steps (60_exceptions.md R603). -/
theorem startOperation (t : Nat) (top : Invocation) (ps : List Phase) (s : State) :
    SameStore s (startOperation t top ps s) := by
  refine (setActive (some t) s).trans ?_
  unfold Machine.startOperation
  rcases startPhases_cases t ps (some top) codeOk 0x00#8 (s.setActive (some t)) with h | h | ⟨c, rest, h⟩
  · rw [h]; exact complete t _ _ _
  · rw [h]; exact complete t _ _ _
  · rw [h]; exact setCtx t _ _

theorem issue {isTxd : Bool} {d x y : Word} {checks : List (Bool × Abnormal)} {ps : List Phase} {s s' : State}
    (h : issue isTxd d x y checks ps s = .next s') : SameStore s s' := by
  obtain ⟨-, ⟨e, rfl⟩ | ⟨-, -, rfl⟩⟩ := issue_cases h
  · exact (emit s _).trans (raise _ _ e _)
  · exact (emit s _).trans (startOperation _ _ ps _)

theorem directRead {r : Reg} {n : Nat} {s s' : State} (h : directRead r n s = .next s') : SameStore s s' := by
  rcases directRead_cases h with ⟨v, hr⟩ | ⟨e, rfl⟩
  · exact of_sameOutside (regReadBy_same hr)
  · exact haltWith _ _ e s

theorem directWrite {r : Reg} {n : Nat} {v : Word} {s s' : State} (h : directWrite r n v s = .next s') :
    SameStore s s' := by
  rcases directWrite_cases h with ⟨-, hw⟩ | ⟨e, rfl⟩
  · exact of_sameOutside (regWriteBy_same hw)
  · exact haltWith _ _ e s

theorem exchange (b : Byte) (s : State) : SameStore s (exchange b s) := by
  obtain ⟨d, m, he⟩ := exchange_eq b s
  rw [he]
  exact ⟨rfl, rfl, fun _ => rfl⟩

theorem emitCommandByte {b : Byte} {s s' : State} (h : emitCommandByte b s = .next s') : SameStore s s' := by
  unfold Machine.emitCommandByte at h
  split at h
  · cases h
  · split at h
    · cases h; exact exchange b s
    · cases h; exact refl s

/-- Each of the four shapes of an instruction's meaning leaves the store alone. -/
theorem exec {i : Instr} {s s' : State} (h : exec i s = .next s') : SameStore s s' := by
  rcases exec_shape i s with ⟨r, n, hi⟩ | ⟨r, n, v, hi⟩ | ⟨b, hi⟩ | ⟨isTxd, d, x, y, checks, ps, hi⟩
  · exact directRead (hi ▸ h)
  · exact directWrite (hi ▸ h)
  · exact emitCommandByte (hi ▸ h)
  · exact issue (hi ▸ h)

end SameStore

/-- Settles O51: every shape of an instruction keeps memory, parameters and programs. -/
theorem instructionsStoreNothing : Obligations.InstructionsStoreNothing := by
  unfold Obligations.InstructionsStoreNothing
  intro i s s' h
  obtain ⟨hmem, hpar, hprog⟩ := SameStore.exec h
  exact ⟨fun a => by rw [hmem], hpar, hprog⟩

end Sys2Proof.Safety
end

section
/-! PROOF. O1, O2: the decoder and the encoder undo each other. Said once for each of the three forms: a register access by register, a descriptor by its four fields, a command byte by its fixed bits (30_encoding.md R301-R303, R310-R312, R320). -/

namespace Sys2Proof.Safety

open Sys2Proof.Machine

/-! ### Register accesses -/

/-- A read's words decode to the register's read, whatever the value word holds (10_state.md R143). -/
theorem decode_readCode (r : Reg) (n : Nat) (v : Word) :
    decode (.rac (accessCode .read (regOffset r)) n v) = .ok (readInstr n r) := by
  simp [decode, decodeRac]

/-- A write's words decode to the register's write, where it has one. -/
theorem decode_writeCode {r : Reg} {n : Nat} {v : Word} {i : Instr} (h : writeInstr n v r = some i) :
    decode (.rac (accessCode .write (regOffset r)) n v) = .ok i := by
  simp [decode, decodeRac, h]

/-- The encoder writes a register's read with the register's code. -/
theorem encode_readInstr (r : Reg) (n : Nat) : encode (readInstr n r) = encodeRead r n := by
  cases r with
  | dmaSrc c | dmaDst c | dmaCnt c | dmaCtrl c | dmaFlags c => cases c <;> rfl
  | _ => rfl

/-- The encoder writes a register's write with the register's code and the value. -/
theorem encode_writeInstr {r : Reg} {n : Nat} {v : Word} {i : Instr} (h : writeInstr n v r = some i) :
    encode i = encodeWrite r n v := by
  cases r with
  | csState | ceState | tmrCount => cases h
  | dmaSrc c | dmaDst c | dmaCnt c | dmaCtrl c | dmaFlags c => cases c <;> (cases h; rfl)
  | _ => cases h; rfl

/-- What an access code can decode to: the read or the write of the one register whose offset it carries. -/
theorem decode_rac_cases {c : AccessCode} {n : Nat} {v : Word} {i : Instr} (h : decode (.rac c n v) = .ok i) :
    ∃ r, (c = accessCode .read (regOffset r) ∧ i = readInstr n r) ∨
      (c = accessCode .write (regOffset r) ∧ writeInstr n v r = some i) := by
  have hc : accessCode (codeDir c) (codeOffset c) = c := accessCode_fields c
  simp only [decode, decodeRac] at h
  cases hr : regAt (codeOffset c) with
  | none => simp [hr] at h
  | some r =>
    rw [← regAt_some _ r hr] at hc
    refine ⟨r, ?_⟩
    cases hd : codeDir c with
    | read =>
      simp only [hr, hd, Except.ok.injEq] at h
      exact .inl ⟨by rw [← hc, hd], h.symm⟩
    | write =>
      cases hw : writeInstr n v r with
      | none => simp [hr, hd, hw] at h
      | some j =>
        simp only [hr, hd, hw, Except.ok.injEq] at h
        exact .inr ⟨by rw [← hc, hd], congrArg some h⟩

/-- Bit 8 of an access code is W. -/
theorem accessCode_getLsbD_W (d : Dir) : ∀ off : Byte, (accessCode d off).getLsbD 8 = (d == .write) := by
  cases d <;> decide

/-! ### Descriptors -/

/-- Every descriptor is one assembled from four fields (30_encoding.md R310). -/
theorem exists_mkDesc (d : Word) : ∃ o a b n, d = mkDesc o a b n := ⟨_, _, _, _, (mkDesc_fields d).symm⟩

/-- The A field of SCS is the level it is read as (30_encoding.md R312). -/
theorem levelField_beq_one {a : Byte} (h : a = 0 ∨ a = 1) : levelField (a == 1) = a := by
  rcases h with rfl | rfl <;> rfl

/-- A descriptor that decodes is the one the encoder writes: OPC selects the row, the row's fixed fields
are zero, the others are its operands. -/
theorem encode_of_decode_desc {d x y : Word} {i : Instr} (h : decode (.desc d x y) = .ok i) :
    encode i = .desc d x y := by
  obtain ⟨o, a, b, n, rfl⟩ := exists_mkDesc d
  simp only [decode, decodeDesc, descOpc_mkDesc, descA_mkDesc, descB_mkDesc, descLen_mkDesc] at h
  split at h
  case h_13 => cases h
  all_goals
    rename_i ho
    obtain rfl := (BitVec.toNat_eq_nat.mp ho).2
    split at h
    case isFalse => cases h
    rename_i hzero
    cases h
    simp only [Bool.and_eq_true, Bool.or_eq_true, beq_iff_eq] at hzero
    simp only [encode, hzero, levelField_beq_one]
    rfl

/-! ### Command bytes -/

/-- W_REGISTER's byte read back: 001 in bits 7:5 and the register in bits 4:0. -/
theorem wRegisterByte_fields :
    ∀ reg : BitVec 5, (wRegisterByte reg).extractLsb' 5 3 = 0b001#3 ∧ (wRegisterByte reg).extractLsb' 0 5 = reg := by
  decide

/-- A byte is W_REGISTER's byte of the register in its bits 4:0 exactly when its bits 7:5 are 001. -/
theorem wRegisterByte_eq_iff :
    ∀ b : Byte, wRegisterByte (b.extractLsb' 0 5) = b ↔ b.extractLsb' 5 3 = 0b001#3 := by decide

/-- A byte that decodes is the one the encoder writes. -/
theorem encode_of_decode_fcb {b : Byte} {i : Instr} (h : decode (.fcb b) = .ok i) : encode i = .fcb b := by
  simp only [decode, decodeFcb] at h
  split at h
  next hreg => cases h; exact congrArg Words.fcb ((wRegisterByte_eq_iff b).mpr hreg)
  split at h
  next hb => cases h; rw [hb]; rfl
  split at h
  next hb => cases h; rw [hb]; rfl
  split at h
  next hb => cases h; rw [hb]; rfl
  cases h

/-! ### Both ways -/

/-- The decoder undoes the encoder on every instruction, whatever its access size. -/
theorem decode_encode (i : Instr) : decode (encode i) = .ok i := by
  cases i with
  | rdSpiDr | rdSpiSr | rdSpiCr | rdCsSet | rdCsClr | rdCsState | rdCeSet | rdCeClr | rdCeState | rdCeCfg
  | rdIrqCfg | rdIrqPend | rdTmrCtrl | rdTmrLoad | rdTmrCount | rdTmrIer | rdTmrSr
  | rdDmaSrc0 | rdDmaDst0 | rdDmaCnt0 | rdDmaCtrl0 | rdDmaFlags0
  | rdDmaSrc1 | rdDmaDst1 | rdDmaCnt1 | rdDmaCtrl1 | rdDmaFlags1 | rdDmaIrq => exact decode_readCode _ _ 0
  | wrSpiDr | wrSpiSr | wrSpiCr | wrCsSet | wrCsClr | wrCeSet | wrCeClr | wrCeCfg
  | wrIrqCfg | wrIrqPend | wrTmrCtrl | wrTmrLoad | wrTmrIer | wrTmrSr
  | wrDmaSrc0 | wrDmaDst0 | wrDmaCnt0 | wrDmaCtrl0 | wrDmaFlags0
  | wrDmaSrc1 | wrDmaDst1 | wrDmaCnt1 | wrDmaCtrl1 | wrDmaFlags1 | wrDmaIrq => exact decode_writeCode rfl
  | scs level => cases level <;> simp [encode, decode, decodeDesc, levelField]
  | rdb | txb | txp | txd | pulse | wreg | waddr | cmd | rstat | send | init =>
    simp [encode, decode, decodeDesc]
  | wRegister reg => simp [encode, decode, decodeFcb, wRegisterByte_fields]
  | wTxPayload | flushTx | flushRx => rfl

/-- The encoder undoes the decoder, a read's unused value word apart (10_state.md R143). -/
theorem encode_of_decode {ws : Words} {i : Instr} (h : decode ws = .ok i) : encode i = canonicalWords ws := by
  cases ws with
  | rac c n v =>
    obtain ⟨r, ⟨rfl, rfl⟩ | ⟨rfl, hw⟩⟩ := decode_rac_cases h
    · rw [encode_readInstr, canonicalWords, accessCode_getLsbD_W]; rfl
    · rw [encode_writeInstr hw, canonicalWords, accessCode_getLsbD_W]; rfl
  | desc d x y => exact encode_of_decode_desc h
  | fcb b => exact encode_of_decode_fcb h

/-- Settles O1: the fields the decoder reads from an assembled word are those it was assembled from, in each
of the three forms. -/
theorem decodeOfEncode : Obligations.DecodeOfEncode := by
  unfold Obligations.DecodeOfEncode
  exact fun i _ => decode_encode i

/-- Settles O2: a word is assembled from its fields, and the fields that are no operand are fixed by the row. -/
theorem encodeOfDecode : Obligations.EncodeOfDecode := by
  unfold Obligations.EncodeOfDecode
  exact fun _ _ => encode_of_decode

end Sys2Proof.Safety
end

section
/-! PROOF. O3, O6, O10: the descriptor rows. A descriptor decodes to an instruction exactly when the encoder writes it for that instruction, and a row's mask compares the fields one by one (30_encoding.md R310-R314). A descriptor of no row is raised at issue as IllegalCommand (60_exceptions.md R603, R610). -/

namespace Sys2Proof.Safety

open Sys2Proof.Machine Sys2Proof.Laws
open Sys2Proof.Laws.EncodingMatchesRow (Statement row fits mkDesc_and)

/-! ### Masks, field by field -/

/-- Two assembled descriptors are equal exactly when their fields are. -/
theorem mkDesc_inj {o a b n o' a' b' n' : Byte} :
    mkDesc o a b n = mkDesc o' a' b' n' ↔ o = o' ∧ a = a' ∧ b = b' ∧ n = n' := by
  refine ⟨fun h => ⟨?_, ?_, ?_, ?_⟩, by rintro ⟨rfl, rfl, rfl, rfl⟩; rfl⟩
  · simpa using congrArg descOpc h
  · simpa using congrArg descA h
  · simpa using congrArg descB h
  · simpa using congrArg descLen h

/-- A field the row fixes at zero: the mask keeps all of it. -/
theorem fixedField (f : Byte) : 0 = f ↔ f &&& 0xFF = 0 := by
  rw [show f &&& 0xFF = f from BitVec.and_allOnes, eq_comm]

/-- A field that is an operand: the mask drops all of it. -/
theorem operandField (f : Byte) : f = f ↔ f &&& 0x00 = 0 :=
  iff_of_true rfl BitVec.and_zero

/-- The level of SCS: the mask drops bit 0 and keeps bits 7:1. -/
theorem levelOperand (d : Word) : levelField (d.getLsbD 16) = descA d ↔ descA d &&& 0xFE = 0 := by
  have hbit : d.getLsbD 16 = (descA d).getLsbD 0 := by simp [descA]
  rw [hbit]
  exact (by decide : ∀ f : Byte, levelField (f.getLsbD 0) = f ↔ f &&& 0xFE = 0) (descA d)

/-- A descriptor decodes to an instruction exactly when it is the one the encoder writes for it. -/
theorem decode_desc_iff {d x y : Word} {i : Instr} : decode (.desc d x y) = .ok i ↔ encode i = .desc d x y :=
  ⟨encode_of_decode_desc, fun h => h ▸ decode_encode i⟩

/-- A row of 30_encoding.md R312: OPC `o` kept whole by the mask, and each other field either fixed or an
operand, as the three premises say of it. -/
theorem decode_row_iff {d x y : Word} {i : Instr} (o a b n ma mb mn : Byte)
    (henc : encode i = .desc (mkDesc o a b n) x y)
    (ha : a = descA d ↔ descA d &&& ma = 0) (hb : b = descB d ↔ descB d &&& mb = 0)
    (hn : n = descLen d ↔ descLen d &&& mn = 0) :
    decode (.desc d x y) = .ok i ↔ d &&& mkDesc 0xFF ma mb mn = mkDesc o 0 0 0 := by
  have hkeep : descOpc d &&& 0xFF = descOpc d := BitVec.and_allOnes
  calc decode (.desc d x y) = .ok i
      ↔ mkDesc o a b n = d := by rw [decode_desc_iff, henc, Words.desc.injEq]; simp
    _ ↔ o = descOpc d ∧ a = descA d ∧ b = descB d ∧ n = descLen d := by
        conv_lhs => rw [← mkDesc_fields d]
        exact mkDesc_inj
    _ ↔ d &&& mkDesc 0xFF ma mb mn = mkDesc o 0 0 0 := by
        conv_rhs => rw [← mkDesc_fields d, mkDesc_and, mkDesc_inj, hkeep, ← ha, ← hb, ← hn, eq_comm]

/-- Settles O3: every row's mask keeps OPC and the fields the row fixes, and drops its operands. -/
theorem descriptorRowsIff : Obligations.DescriptorRows := by
  unfold Obligations.DescriptorRows
  intro d x y
  exact
    ⟨decode_row_iff 0x01 0 0 0 0xFF 0xFF 0xFF rfl (fixedField _) (fixedField _) (fixedField _),
     decode_row_iff 0x02 0 (descB d) 0 0xFF 0x00 0xFF rfl (fixedField _) (operandField _) (fixedField _),
     decode_row_iff 0x03 0 0 (descLen d) 0xFF 0xFF 0x00 rfl (fixedField _) (fixedField _) (operandField _),
     decode_row_iff 0x04 0 0 (descLen d) 0xFF 0xFF 0x00 rfl (fixedField _) (fixedField _) (operandField _),
     decode_row_iff 0x05 (levelField (d.getLsbD 16)) 0 0 0xFE 0xFF 0xFF rfl (levelOperand d) (fixedField _)
       (fixedField _),
     decode_row_iff 0x10 0 0 0 0xFF 0xFF 0xFF rfl (fixedField _) (fixedField _) (fixedField _),
     decode_row_iff 0x20 (descA d) (descB d) 0 0x00 0x00 0xFF rfl (operandField _) (operandField _) (fixedField _),
     decode_row_iff 0x21 (descA d) 0 (descLen d) 0x00 0xFF 0x00 rfl (operandField _) (fixedField _) (operandField _),
     decode_row_iff 0x22 0 (descB d) 0 0xFF 0x00 0xFF rfl (fixedField _) (operandField _) (fixedField _),
     decode_row_iff 0x23 0 0 0 0xFF 0xFF 0xFF rfl (fixedField _) (fixedField _) (fixedField _),
     decode_row_iff 0x24 0 0 (descLen d) 0xFF 0xFF 0x00 rfl (fixedField _) (fixedField _) (operandField _),
     decode_row_iff 0x25 0 0 0 0xFF 0xFF 0xFF rfl (fixedField _) (fixedField _) (fixedField _)⟩

/-- Settles O6: each word is the one the encoder writes for its instruction. -/
theorem workedEncodings : Obligations.WorkedEncodings := by
  unfold Obligations.WorkedEncodings
  intro x y
  exact
    ⟨decode_encode (.wreg 0x05 0x32 x y), decode_encode (.send 4 x y), decode_encode (.txd 5 x y),
     decode_encode (.scs true x y), decode_encode (.cmd 0xE1 x y), decode_encode (.waddr 0x10 5 x y)⟩

/-! ### Descriptors of no row -/

/-- An operation's mask and match stand in the table of rows. -/
theorem row_mem_descriptorRows {d x y : Word} {i : Instr} (h : encode i = .desc d x y) :
    (BitVec.ofNat 32 (row i).1, BitVec.ofNat 32 (row i).2) ∈ descriptorRows := by
  cases i with
  | rdb | txb | txp | txd | scs | pulse | wreg | waddr | cmd | rstat | send | init => simp [row, descriptorRows]
  | _ => cases h

/-- The descriptor the encoder writes matches its operation's row (Laws/PerInstr.lean). -/
theorem statement_of_encode_desc {d x y : Word} {i : Instr} (h : encode i = .desc d x y) : Statement i := by
  cases i with
  | rdb => exact EncodingMatchesRow.rdb _ _
  | txb => exact EncodingMatchesRow.txb _ _ _
  | txp => exact EncodingMatchesRow.txp _ _ _
  | txd => exact EncodingMatchesRow.txd _ _ _
  | scs => exact EncodingMatchesRow.scs _ _ _
  | pulse => exact EncodingMatchesRow.pulse _ _
  | wreg => exact EncodingMatchesRow.wreg _ _ _ _
  | waddr => exact EncodingMatchesRow.waddr _ _ _ _
  | cmd => exact EncodingMatchesRow.cmd _ _ _
  | rstat => exact EncodingMatchesRow.rstat _ _
  | send => exact EncodingMatchesRow.send _ _ _
  | init => exact EncodingMatchesRow.init _ _
  | _ => cases h

/-- A descriptor that decodes matches a row of the table. -/
theorem exists_row_of_decode {d x y : Word} {i : Instr} (h : decode (.desc d x y) = .ok i) :
    ∃ p ∈ descriptorRows, d &&& p.1 = p.2 := by
  have henc : encode i = .desc d x y := encode_of_decode_desc h
  have hfits : fits (row i).1 (row i).2 (encode i) := statement_of_encode_desc henc
  rw [henc] at hfits
  exact ⟨_, row_mem_descriptorRows henc, hfits⟩

/-- The only rejection of a descriptor is the illegal descriptor. -/
theorem decode_desc_error {d x y : Word} {e : Reject} (h : decode (.desc d x y) = .error e) :
    e = .illegalDescriptor d := by
  simp only [decode, decodeDesc] at h
  split at h
  case h_13 => cases h; rfl
  all_goals
    split at h
    case isTrue => cases h
    cases h; rfl

/-- A descriptor that matches no row is rejected by name (30_encoding.md R313). -/
theorem decode_desc_of_no_row {d x y : Word} (h : ∀ p ∈ descriptorRows, d &&& p.1 ≠ p.2) :
    decode (.desc d x y) = .error (.illegalDescriptor d) := by
  cases hd : decode (.desc d x y) with
  | ok i =>
    obtain ⟨p, hp, hmatch⟩ := exists_row_of_decode hd
    exact absurd hmatch (h p hp)
  | error e => rw [decode_desc_error hd]

/-! ### Raising at issue -/

/-- An error raised at issue, right after the Issue event, is a rejected issue (60_exceptions.md R603, R610). -/
theorem raise_issue_eq_rejected {e : Abnormal} (he : isFault e = false) (d x y : Word) (s : State) :
    raise s.curTask (some .issue) e (s.emit (.issue s.curTask d x y)) = rejected d x y e (abnormalCode e) s := by
  cases hp : s.par.errorPolicy with
  | fatal => simp [raise, rejected, he, hp, haltWith, State.setHalted, State.emit]
  | report =>
    simp [raise, rejected, he, hp, reportAtIssue, State.setResult, State.setTask, State.emit, State.taskAt]

/-- Settles O10: no row matches, so the decoder rejects the word by name, and the task's step raises
IllegalCommand with nothing but its program's advance and the Issue event before it. -/
theorem illegalDescriptor : Obligations.IllegalDescriptor := by
  unfold Obligations.IllegalDescriptor
  intro d x y hnone
  have hdec : decode (.desc d x y) = .error (.illegalDescriptor d) := decode_desc_of_no_row hnone
  refine ⟨hdec, fun s t rest hrun habout => ?_⟩
  rw [runs_single hrun, turn_idle habout, invoke, invocationWords, hdec, setProg_setCurTask]
  exact congrArg _ (raise_issue_eq_rejected rfl d x y (taken t rest s))

end Sys2Proof.Safety
end

section
/-! PROOF. O4: the register access table. A code that decodes carries a register's offset, and each of the 53 codes of R303 is a register's read or write (30_encoding.md R301-R303). -/

namespace Sys2Proof.Safety

open Sys2Proof.Machine

/-- The only rejection of an access code is the unassigned access. -/
theorem decode_rac_error {c : AccessCode} {n : Nat} {v : Word} {e : Reject} (h : decode (.rac c n v) = .error e) :
    e = .unassignedAccess c := by
  simp only [decode, decodeRac] at h
  cases hr : regAt (codeOffset c) with
  | none => simp only [hr] at h; cases h; rfl
  | some r =>
    cases hd : codeDir c with
    | read => simp only [hr, hd] at h; cases h
    | write =>
      cases hw : writeInstr n v r with
      | some i => simp only [hr, hd, hw] at h; cases h
      | none => simp only [hr, hd, hw] at h; cases h; rfl

/-- The codes of the table, which do not depend on the size and the value of an access. -/
theorem codes_accessRows (n : Nat) (v : Word) :
    (accessRows n v).map Prod.fst = (accessRows 4 0).map Prod.fst := rfl

theorem readCode_mem_accessRows (r : Reg) :
    accessCode .read (regOffset r) ∈ (accessRows 4 0).map Prod.fst := by
  cases r with
  | dmaSrc c | dmaDst c | dmaCnt c | dmaCtrl c | dmaFlags c => cases c <;> decide
  | _ => decide

theorem writeCode_mem_accessRows {r : Reg} {n : Nat} {v : Word} {i : Instr} (h : writeInstr n v r = some i) :
    accessCode .write (regOffset r) ∈ (accessRows 4 0).map Prod.fst := by
  cases r with
  | csState | ceState | tmrCount => cases h
  | dmaSrc c | dmaDst c | dmaCnt c | dmaCtrl c | dmaFlags c => cases c <;> decide
  | _ => decide

/-- A code that decodes stands in the table. -/
theorem exists_accessRow_of_decode {c : AccessCode} {n : Nat} {v : Word} {i : Instr}
    (h : decode (.rac c n v) = .ok i) : ∃ p ∈ accessRows n v, p.1 = c := by
  rw [← List.mem_map, codes_accessRows]
  obtain ⟨r, ⟨rfl, -⟩ | ⟨rfl, hw⟩⟩ := decode_rac_cases h
  · exact readCode_mem_accessRows r
  · exact writeCode_mem_accessRows hw

/-- Every row of the table is what the decoder reads from its code. -/
theorem decode_accessRows (n : Nat) (v : Word) : ∀ p ∈ accessRows n v, decode (.rac p.1 n v) = .ok p.2 := by
  simp only [accessRows, accessRows1, accessRows2, accessRows3, accessRows4, accessRows5, accessRows6,
    List.forall_mem_append, List.forall_mem_cons, List.not_mem_nil, false_implies, implies_true, and_true]
  and_intros <;> rfl

/-- Settles O4: the table's rows decode as they stand, and a code that decodes is a row's. -/
theorem accessCodeRows : Obligations.AccessCodeRows := by
  unfold Obligations.AccessCodeRows
  refine fun n v => ⟨decode_accessRows n v, fun c hnone => ?_⟩
  cases hd : decode (.rac c n v) with
  | ok i =>
    obtain ⟨p, hp, hcode⟩ := exists_accessRow_of_decode hd
    exact absurd hcode (hnone p hp)
  | error e => rw [decode_rac_error hd]

end Sys2Proof.Safety
end

section
/-! PROOF. O5: the frame command bytes. As for descriptors, a byte decodes to a command exactly when the encoder writes it for that command; what is left is W_REGISTER's mask (30_encoding.md R320, R321). -/

namespace Sys2Proof.Safety

open Sys2Proof.Machine

/-- A byte decodes to a command exactly when it is the one the encoder writes for it. -/
theorem decode_fcb_iff {b : Byte} {i : Instr} : decode (.fcb b) = .ok i ↔ encode i = .fcb b :=
  ⟨encode_of_decode_fcb, fun h => h ▸ decode_encode i⟩

/-- W_REGISTER's mask keeps bits 7:5. -/
theorem wRegister_mask_iff : ∀ b : Byte, b.extractLsb' 5 3 = 0b001#3 ↔ b &&& 0xE0#8 = 0x20#8 := by decide

theorem decode_wRegister_iff (b : Byte) :
    decode (.fcb b) = .ok (.wRegister (b.extractLsb' 0 5)) ↔ b &&& 0xE0#8 = 0x20#8 := by
  rw [decode_fcb_iff, encode, Words.fcb.injEq, wRegisterByte_eq_iff, wRegister_mask_iff]

/-- The commands with a byte of their own. -/
theorem decode_fixedByte_iff {b c : Byte} {i : Instr} (h : encode i = .fcb c) : decode (.fcb b) = .ok i ↔ b = c := by
  rw [decode_fcb_iff, h, Words.fcb.injEq, eq_comm]

/-- A byte is no command byte exactly when it is the byte of none of the four rows. -/
theorem decode_fcb_error_iff (b : Byte) :
    decode (.fcb b) = .error (.notACommandByte b) ↔
      b &&& 0xE0#8 ≠ 0x20#8 ∧ b ≠ 0xA0#8 ∧ b ≠ 0xE1#8 ∧ b ≠ 0xE2#8 := by
  simp only [decode, decodeFcb, wRegister_mask_iff]
  split_ifs <;> simp [*]

/-- `wreg(reg)` of a register number that fits in five bits is W_REGISTER's byte (30_encoding.md R321). -/
theorem wregByte_spec : ∀ reg : Byte, reg.toNat ≤ 0x1F →
    (wregByte reg).toNat = 0x20 + reg.toNat ∧ wregByte reg = wRegisterByte (reg.extractLsb' 0 5) := by decide

/-- Settles O5: each command's row by the byte the encoder writes for it. -/
theorem commandByteRows : Obligations.CommandByteRows := by
  unfold Obligations.CommandByteRows
  refine ⟨fun b => ⟨decode_wRegister_iff b, decode_fixedByte_iff rfl, decode_fixedByte_iff rfl,
    decode_fixedByte_iff rfl, decode_fcb_error_iff b⟩, fun reg hreg => ?_⟩
  obtain ⟨hval, hbyte⟩ := wregByte_spec reg hreg
  exact ⟨hval, hbyte ▸ decode_encode (.wRegister _)⟩

end Sys2Proof.Safety
end

section
/-! PROOF. Direct accesses of a task that no other task's operation shuts out, as the states a statement names: a word read, a word write, a refused size, a write of a read-only register (20_memory.md R210-R212; 60_exceptions.md R606). -/

namespace Sys2Proof.Safety

open Sys2Proof.Machine

theorem directRead_word {r : Reg} {v : Word} {s : State} (h : mayAccess s) (hr : readReg r s = some (v, s)) :
    directRead r 4 s = .next (afterRead (regOffset r) 4 v s) :=
  directRead_ok h.1 h.2 rfl hr

theorem directWrite_word {r : Reg} {v : Word} {s s' : State} (h : mayAccess s) (hok : regWriteOk r 4 v s = true)
    (hw : writeReg r v (afterWrite (regOffset r) 4 v s) = some s') : directWrite r 4 v s = .next s' :=
  directWrite_ok h.1 h.2 hok hw

/-- Only SPI_DR takes another size than a word (20_memory.md R212 check 2). -/
theorem regSizeOk_of_ne {r : Reg} {n : Nat} (hr : r ≠ .spiDr) (hn : n ≠ 4) : regSizeOk r n = false := by
  simp [regSizeOk, hr, hn]

theorem directRead_badSize {r : Reg} {n : Nat} {s : State} (h : mayAccess s) (hr : r ≠ .spiDr) (hn : n ≠ 4) :
    directRead r n s = .next (afterHalt (.badRegisterAccess (regOffset r)) s) :=
  directRead_size h.1 h.2 (regSizeOk_of_ne hr hn)

theorem directWrite_badSize {r : Reg} {n : Nat} {v : Word} {s : State} (h : mayAccess s) (hr : r ≠ .spiDr)
    (hn : n ≠ 4) : directWrite r n v s = .next (afterHalt (.badRegisterAccess (regOffset r)) s) :=
  directWrite_refused h.1 h.2 (by simp [regWriteOk, regSizeOk_of_ne hr hn])

/-- The write of a read-only register, which no instruction encodes, halts (20_memory.md R212 check 3). -/
theorem rejectInvocation_access {s : State} (h : mayAccess s) (off : Byte) (n : Nat) (dir : Dir) (v : Word) :
    rejectInvocation s.curTask (.acc off n dir v) s = afterHalt (.badRegisterAccess off) s :=
  directUnassigned_open off h.2

/-- A one-bit register reads as its bit. -/
theorem bitWord_zero (b : Bool) : bitWord b 0 = BitVec.ofNat 32 b.toNat := by cases b <;> rfl

end Sys2Proof.Safety
end

section
/-! PROOF. O20, O21: the registers of the CS and CE lines. A write of bit 0 moves a line that stands the other way and says so, and otherwise leaves it; the SET and the CLR register of a line are one register with the level as a parameter (40_chip_select.md R400-R407). -/

namespace Sys2Proof.Safety

open Sys2Proof.Machine

/-! ### The CS line -/

/-- The register whose bit 0 makes CS `level` (R400, R401). -/
def csReg (level : Bool) : Reg := if level then .csSet else .csClr

theorem regWriteOk_csReg (level : Bool) (v : Word) (s : State) : regWriteOk (csReg level) 4 v s = true := by
  cases level <;> rfl

theorem writeReg_csReg_moves {level : Bool} {v : Word} {s : State} (hcs : s.cs.asserted = !level)
    (hv : bitOf v 0 = true) :
    writeReg (csReg level) v s = some ((s.setCs ⟨level⟩).emit (.csChange level)) := by
  cases level <;> simp [csReg, writeReg, writeCsSet, writeCsClr, hcs, hv]

theorem writeReg_csReg_stays {level : Bool} {v : Word} {s : State}
    (h : s.cs.asserted = level ∨ bitOf v 0 = false) : writeReg (csReg level) v s = some s := by
  cases level <;> rcases h with h | h <;> simp [csReg, writeReg, writeCsSet, writeCsClr, h]

theorem directWrite_csReg_moves {level : Bool} {v : Word} {s : State} (h : mayAccess s)
    (hcs : s.cs.asserted = !level) (hv : bitOf v 0 = true) :
    directWrite (csReg level) 4 v s = .next { s with
      cs := ⟨level⟩
      hist := s.hist ++ [.regAcc (.task s.curTask) (regOffset (csReg level)) 4 .write v, .csChange level] } := by
  rw [directWrite_word h (regWriteOk_csReg level v s) (writeReg_csReg_moves hcs hv)]
  simp [afterWrite, State.setCs, State.emit]

theorem directWrite_csReg_stays {level : Bool} {v : Word} {s : State} (h : mayAccess s)
    (hs : s.cs.asserted = level ∨ bitOf v 0 = false) :
    directWrite (csReg level) 4 v s = .next (afterWrite (regOffset (csReg level)) 4 v s) :=
  directWrite_word h (regWriteOk_csReg level v s) (writeReg_csReg_stays hs)

/-- Settles O20: the writes by the level they make, the reads by the value read, the refusals by the check
that fails. -/
theorem chipSelectRegisters : Obligations.ChipSelectRegisters := by
  unfold Obligations.ChipSelectRegisters
  intro s n v h acc
  refine ⟨fun hcs hv => ⟨_, directWrite_csReg_moves (level := true) h hcs hv, .inl rfl⟩,
    directWrite_csReg_stays (level := true) h,
    fun hcs hv => ⟨_, directWrite_csReg_moves (level := false) h hcs hv, .inl rfl⟩,
    directWrite_csReg_stays (level := false) h,
    directRead_word (r := .csSet) h rfl, directRead_word (r := .csClr) h rfl, ?_, fun hn => ?_,
    rejectInvocation_access h _ n .write v⟩
  · rw [← bitWord_zero]
    exact directRead_word (r := .csState) h rfl
  · exact ⟨directRead_badSize h nofun hn, directWrite_badSize h nofun hn, directRead_badSize h nofun hn,
      directWrite_badSize h nofun hn, directRead_badSize h nofun hn⟩

/-! ### The CE line -/

/-- The register whose bit 0 makes CE `level` (R404, R405). -/
def ceReg (level : Bool) : Reg := if level then .ceSet else .ceClr

theorem regWriteOk_ceReg (level : Bool) (v : Word) (s : State) : regWriteOk (ceReg level) 4 v s = true := by
  cases level <;> rfl

theorem writeReg_ceReg_moves {level : Bool} {v : Word} {s : State} (hce : s.ce.level = !level)
    (hv : bitOf v 0 = true) :
    writeReg (ceReg level) v s = some ((s.setCe { s.ce with level := level }).emit (.ceChange level)) := by
  cases level <;> simp [ceReg, writeReg, writeCeSet, writeCeClr, hce, hv]

theorem writeReg_ceReg_stays {level : Bool} {v : Word} {s : State}
    (h : s.ce.level = level ∨ bitOf v 0 = false) : writeReg (ceReg level) v s = some s := by
  cases level <;> rcases h with h | h <;> simp [ceReg, writeReg, writeCeSet, writeCeClr, h]

theorem directWrite_ceReg_moves {level : Bool} {v : Word} {s : State} (h : mayAccess s)
    (hce : s.ce.level = !level) (hv : bitOf v 0 = true) :
    directWrite (ceReg level) 4 v s = .next { s with
      ce := { s.ce with level := level }
      hist := s.hist ++ [.regAcc (.task s.curTask) (regOffset (ceReg level)) 4 .write v, .ceChange level] } := by
  rw [directWrite_word h (regWriteOk_ceReg level v s) (writeReg_ceReg_moves hce hv)]
  simp [afterWrite, State.setCe, State.emit]

theorem directWrite_ceReg_stays {level : Bool} {v : Word} {s : State} (h : mayAccess s)
    (hs : s.ce.level = level ∨ bitOf v 0 = false) :
    directWrite (ceReg level) 4 v s = .next (afterWrite (regOffset (ceReg level)) 4 v s) :=
  directWrite_word h (regWriteOk_ceReg level v s) (writeReg_ceReg_stays hs)

/-- The line is driven exactly while OE = 1 (R406, R408). -/
theorem ceLine_driven (s : State) :
    (s.ce.oe = false → ceLine s = none) ∧ (s.ce.oe = true → ceLine s = some s.ce.level) := by
  constructor <;> intro hoe <;> simp [ceLine, hoe]

/-- Settles O21: as O20, with the output enable, which no level write looks at. -/
theorem chipEnableRegisters : Obligations.ChipEnableRegisters := by
  unfold Obligations.ChipEnableRegisters
  intro s n v h acc
  refine ⟨fun hce hv => ⟨_, directWrite_ceReg_moves (level := true) h hce hv, .inl rfl⟩,
    directWrite_ceReg_stays (level := true) h,
    fun hce hv => ⟨_, directWrite_ceReg_moves (level := false) h hce hv, .inl rfl⟩,
    directWrite_ceReg_stays (level := false) h,
    directWrite_word (r := .ceCfg) h rfl rfl, directRead_word (r := .ceSet) h rfl,
    directRead_word (r := .ceClr) h rfl, ?_, ?_, fun hn => ?_,
    rejectInvocation_access h _ n .write v, ceLine_driven s⟩
  · rw [← bitWord_zero]
    exact directRead_word (r := .ceState) h rfl
  · rw [← bitWord_zero]
    exact directRead_word (r := .ceCfg) h rfl
  · exact ⟨directRead_badSize h nofun hn, directWrite_badSize h nofun hn, directRead_badSize h nofun hn,
      directWrite_badSize h nofun hn, directRead_badSize h nofun hn, directRead_badSize h nofun hn,
      directWrite_badSize h nofun hn⟩

end Sys2Proof.Safety
end

section
/-! PROOF. O40: SetChipSelect is one step, the write of the register that makes CS its level, and a return (40_chip_select.md R410; 10_state.md R107). -/

namespace Sys2Proof.Safety

open Sys2Proof.Machine

/-- Moving a task without touching its fields makes it the current task. -/
theorem onTask_taskAt {t : Nat} {s : State} (h : t < s.tasks.length) : onTask t (s.taskAt t) s = s.setCurTask t := by
  have hset : s.tasks.set t (s.taskAt t) = s.tasks := by simp [State.taskAt, h]
  rw [onTask, hset]
  rfl

/-- A return by the current task, whose context is still that of the step's start. -/
theorem returnOp_setCurTask {t : Nat} {s : State} (h : t < s.tasks.length) (data : Byte) :
    returnOp t codeOk data (s.setCurTask t) = afterReturn t (s.taskAt t) data (s.taskAt t).ctx.phases s := by
  rw [← onTask_taskAt h]
  exact returnOp_afterReturn h (s.taskAt t) (s.taskAt t).ctx.cur data

/-- Writing 1 to CS's register of a level makes CS that level, with the event of a change (R400, R401). -/
theorem writeReg_csReg_one (level : Bool) (s : State) :
    writeReg (csReg level) 1 s = some { s with cs := ⟨level⟩, hist := s.hist ++ csEvents level s } := by
  by_cases h : s.cs.asserted = level
  · rw [writeReg_csReg_stays (.inl h), csEvents, if_pos h, List.append_nil, ← h]
  · rw [writeReg_csReg_moves (Bool.eq_not_of_ne h) rfl, csEvents, if_neg h]
    rfl

theorem regOffset_csReg (level : Bool) : regOffset (csReg level) = if level = true then 0x10#8 else 0x14#8 := by
  cases level <;> rfl

/-- The state with task `t`'s write of CS's register done: the access recorded, CS at `level`, the event of a
change. -/
def csWritten (t : Nat) (level : Bool) (s : State) : State :=
  { s with
    cs := ⟨level⟩
    hist := s.hist ++ [.regAcc (.task t) (if level = true then 0x10#8 else 0x14#8) 4 .write 1] ++ csEvents level s }

/-- SetChipSelect's step S0, by the task it makes current. -/
theorem stepScs_eq (t : Nat) (c : Locals) (s : State) :
    stepScs t c (s.setCurTask t) = returnOp t codeOk 0x00#8 ((csWritten t c.level s).setCurTask t) := by
  rw [csWritten, ← regOffset_csReg]
  exact stepWrite_ok (regWriteOk_csReg c.level 1 _) (writeReg_csReg_one c.level _)

/-- Settles O40: the step is the write of CS's register and the return. -/
theorem setChipSelectRuns : Obligations.SetChipSelectRuns := by
  unfold Obligations.SetChipSelectRuns
  intro s t c ps hrun hat
  have hstep : operationStep t ⟨.scs, c⟩ (s.setCurTask t) =
      returnOp t codeOk 0x00#8 ((csWritten t c.level s).setCurTask t) := stepScs_eq t c s
  rw [runs_single hrun, turn_task hat rfl, hstep]
  obtain ⟨ht, -, rfl⟩ := hat
  exact congrArg Host.Outcome.next (returnOp_setCurTask (s := csWritten t c.level s) ht 0x00#8)

end Sys2Proof.Safety
end

section
/-! PROOF. O23, O24: the timer registers. TMR_CTRL does RESET, START and STOP in that order; the others read and write their own fields (41_timer.md R420-R425). -/

namespace Sys2Proof.Safety

open Sys2Proof.Machine

/-! ### TMR_CTRL -/

/-- R420's pseudocode on the timer, for the bits RESET, START and STOP of the written word. -/
def timerControlled (reset start stop : Bool) (m : TimerState) : TimerState :=
  let m1 := if reset then { m with count := 0 } else m
  let m2 := if start then { m1 with count := 0, running := true } else m1
  if stop then { m2 with running := false } else m2

/-- The three in their order are one update: RESET or START clears the count, START runs the timer unless STOP
is written with it. -/
theorem timerControlled_eq (reset start stop : Bool) (m : TimerState) :
    timerControlled reset start stop m = { m with
      count := if reset || start then 0 else m.count
      running := (m.running || start) && !stop } := by
  cases reset <;> cases start <;> cases stop <;> simp [timerControlled]

theorem writeTmrCtrl_eq (v : Word) (s : State) :
    writeTmrCtrl v s = s.setTmr (timerControlled (v.getLsbD 2) (v.getLsbD 0) (v.getLsbD 1) s.tmr) := by
  rw [timerControlled_eq]
  rfl

/-- Settles O23: the write by R420's three steps, the read by its bit, the refusals by the size check. -/
theorem timerControl : Obligations.TimerControl := by
  unfold Obligations.TimerControl
  intro s n v h
  refine ⟨directWrite_word (r := .tmrCtrl) h rfl (congrArg some (writeTmrCtrl_eq v _)), ?_, fun hn =>
    ⟨directRead_badSize h nofun hn, directWrite_badSize h nofun hn⟩⟩
  rw [← bitWord_zero]
  exact directRead_word (r := .tmrCtrl) h rfl

/-! ### TMR_LOAD, TMR_COUNT, TMR_IER and TMR_SR -/

/-- Writing 1 clears the flag, writing 0 keeps it (00_scope.md R15). -/
theorem w1c_eq (v : Word) (i : Nat) (flag : Bool) : w1c v i flag = if v.getLsbD i then false else flag := by
  cases h : v.getLsbD i <;> simp [w1c, bitOf, h]

theorem tmrSrImage_eq (m : TimerState) :
    tmrSrImage m = BitVec.ofNat 32 (2 * m.mtch.toNat + m.ovf.toNat) := by
  unfold tmrSrImage
  cases m.mtch <;> cases m.ovf <;> rfl

theorem writeTmrSr_eq (v : Word) (s : State) :
    writeTmrSr v s = s.setTmr { s.tmr with
      ovf := if v.getLsbD 0 then false else s.tmr.ovf
      mtch := if v.getLsbD 1 then false else s.tmr.mtch } := by
  rw [writeTmrSr, w1c_eq, w1c_eq]

/-- Settles O24: each read by the value read, each write by its effect on the timer, the refusals by the check
that fails. -/
theorem timerRegisters : Obligations.TimerRegisters := by
  unfold Obligations.TimerRegisters
  intro s n v h
  refine ⟨⟨_, directRead_word (r := .tmrLoad) h rfl, fun _ => rfl⟩,
    ⟨_, directWrite_word (r := .tmrLoad) h rfl rfl, fun _ => rfl⟩,
    ⟨_, directRead_word (r := .tmrCount) h rfl, fun _ => rfl⟩, ?_,
    ⟨_, directWrite_word (r := .tmrIer) h rfl rfl, rfl, rfl⟩, ?_,
    directWrite_word (r := .tmrSr) h rfl (congrArg some (writeTmrSr_eq v _)), fun hn => ?_,
    rejectInvocation_access h _ n .write v⟩
  · rw [← bitWord_zero]
    exact directRead_word (r := .tmrIer) h rfl
  · rw [← tmrSrImage_eq]
    exact directRead_word (r := .tmrSr) h rfl
  · exact ⟨directRead_badSize h nofun hn, directWrite_badSize h nofun hn, directRead_badSize h nofun hn,
      directRead_badSize h nofun hn, directWrite_badSize h nofun hn, directRead_badSize h nofun hn,
      directWrite_badSize h nofun hn⟩

end Sys2Proof.Safety
end

section
/-! PROOF. O33, O34, O60: the timer's turn, its interrupt handler's turn, and what a timer wait that passes says about the ticks (41_timer.md R426-R430). -/

namespace Sys2Proof.Safety

open Sys2Proof.Machine

theorem tickTimer_eq (w : Nat) (m : TimerState) :
    tickTimer w m = { m with
      count := (m.count + 1) % 2 ^ w
      ovf := if (m.count + 1) % 2 ^ w = 0 then true else m.ovf
      mtch := if (m.count + 1) % 2 ^ w = m.load then true else m.mtch } := by
  have setFlag (c d : Nat) (b : Bool) : (b || c == d) = if c = d then true else b := by
    by_cases h : c = d <;> simp [h]
  simp only [tickTimer, setFlag]

/-- Settles O33: the timer's turn is the tick while it runs, and no move while it does not. -/
theorem timerTick : Obligations.TimerTick := by
  unfold Obligations.TimerTick
  intro s hrun
  refine ⟨fun hon => ?_, fun hoff => ?_⟩
  · rw [runs_single hrun, turn_on (a := .timer) hon, agentStep, tick, tickTimer_eq]
    rfl
  · rw [runs_single hrun, turn_off (a := .timer) hoff]

theorem timerLine_iff (s : State) : timerLine s = true ↔ s.tmr.ovf = true ∧ s.tmr.ovfie = true :=
  Bool.and_eq_true_iff

/-- Settles O34: the handler's turn is its step while the line is high, and no move while it is low. -/
theorem overflowHandler : Obligations.OverflowHandler := by
  unfold Obligations.OverflowHandler
  intro s hrun
  rw [← timerLine_iff, runs_single hrun]
  exact ⟨fun hhigh => turn_on (a := .ovfHandler) hhigh,
    fun hlow => turn_off (a := .ovfHandler) (Bool.eq_false_of_not_eq_true hlow)⟩

/-- The count, a remainder of the ticks since it was last cleared, is at most their number. -/
theorem count_le_ticksSinceClear {s : State} (h : countInv s) : s.tmr.count ≤ ticksSinceClear s.hist := by
  rw [h]
  exact Nat.mod_le _ _

/-- A task in an operation has a step only where the hold of its label allows it (70_reset_and_hazards.md
R723). -/
theorem holdOk_of_enabled {t : Nat} {l : Label} {c : Locals} {ps : List Phase} {s : State}
    (hat : atStep t l c ps s) (he : enabled (.task t) s = true) : holdOk t ⟨l, c⟩ s = true := by
  obtain ⟨-, hcur, -⟩ := hat
  simpa [enabled, taskEnabled, hcur] using he

/-- Settles O60: a wait that passes has its target at most the count, and the count at most the ticks. -/
theorem timerWaitsNeedTicks : Obligations.TimerWaitsNeedTicks := by
  unfold Obligations.TimerWaitsNeedTicks
  intro s t c ps hcount
  have hticks := count_le_ticksSinceClear hcount
  refine ⟨fun hat he => ?_, fun hat he => ?_⟩
  · have htarget : c.target ≤ s.tmr.count := of_decide_eq_true (holdOk_of_enabled hat he)
    exact htarget.trans hticks
  · have htarget : Config.cePulseTicks ≤ s.tmr.count := of_decide_eq_true (holdOk_of_enabled hat he)
    exact htarget.trans hticks

end Sys2Proof.Safety
end

section
/-! PROOF. O17, O18, O19: the registers of the SPI data path, by a task and by a channel. SPI_SR and SPI_CR are plain registers; SPI_DR takes two sizes, has no value before the first byte is received, and takes none while TXE = 0 (42_spi_transport.md R440-R443, R447). -/

namespace Sys2Proof.Safety

open Sys2Proof.Machine

/-! ### SPI_SR and SPI_CR -/

theorem spiSrImage_eq (p : SpiState) : spiSrImage p = statusWord p := by
  unfold spiSrImage statusWord
  cases p.ovr <;> cases p.bsy <;> cases p.txe <;> cases p.rxne <;> rfl

theorem readReg_spiSr (s : State) : readReg .spiSr s = some (statusWord s.spi, s) := by
  rw [readReg, readSpiSr, spiSrImage_eq]

theorem spiCrImage_eq (p : SpiState) :
    spiCrImage p = BitVec.ofNat 32 (2 * p.rxdmaen.toNat + p.txdmaen.toNat) := by
  unfold spiCrImage
  cases p.rxdmaen <;> cases p.txdmaen <;> rfl

theorem writeSpiSr_eq (v : Word) (s : State) :
    writeSpiSr v s = s.setSpi { s.spi with ovr := if v.getLsbD 3 then false else s.spi.ovr } := by
  rw [writeSpiSr, w1c_eq]

/-- Settles O17: each read by the value read, each write by its effect on the data path, the refusals by the
size check. -/
theorem spiStatusAndControl : Obligations.SpiStatusAndControl := by
  unfold Obligations.SpiStatusAndControl
  intro s n v h
  refine ⟨directRead_word h (readReg_spiSr s),
    directWrite_word (r := .spiSr) h rfl (congrArg some (writeSpiSr_eq v _)), ?_,
    ⟨_, directWrite_word (r := .spiCr) h rfl rfl, rfl, rfl, rfl⟩, fun hn =>
    ⟨directRead_badSize h nofun hn, directWrite_badSize h nofun hn, directRead_badSize h nofun hn,
      directWrite_badSize h nofun hn⟩⟩
  rw [← spiCrImage_eq]
  exact directRead_word (r := .spiCr) h rfl

/-! ### SPI_DR, by a task -/

theorem regSizeOk_spiDr {n : Nat} : regSizeOk .spiDr n = true ↔ n = 1 ∨ n = 4 := by
  simp [regSizeOk, or_comm]

theorem regWriteOk_spiDr (n : Nat) (v : Word) (s : State) : regWriteOk .spiDr n v s = regSizeOk .spiDr n := by
  simp [regWriteOk, regReadOnly, regDmaBusy]

theorem regSizeOk_spiDr_of_ne {n : Nat} (h1 : n ≠ 1) (h4 : n ≠ 4) : regSizeOk .spiDr n = false := by
  simp [regSizeOk, h1, h4]

theorem readSpiDr_received {s : State} {b : Byte} (h : s.spi.rxbuf = some b) :
    readSpiDr s = some (byteWord b, s.setSpi { s.spi with rxne := false }) := by
  rw [readSpiDr, h]

theorem readSpiDr_unwritten {s : State} (h : s.spi.rxbuf = none) : readSpiDr s = none := by
  rw [readSpiDr, h]

theorem writeSpiDr_empty {s : State} (h : s.spi.txe = true) (v : Word) :
    writeSpiDr v s = some (s.setSpi { s.spi with txbuf := lowByte v, txe := false }) := by
  rw [writeSpiDr, if_pos h]

theorem writeSpiDr_full {s : State} (h : s.spi.txe = false) (v : Word) : writeSpiDr v s = none := by
  rw [writeSpiDr, h]
  rfl

/-- A byte write moves bits 7:0 (20_memory.md R211). -/
theorem lowByte_accessValue (n : Nat) (v : Word) : lowByte (accessValue n v) = lowByte v := by
  apply BitVec.eq_of_getLsbD_eq
  intro i hi
  have hbit : (accessValue n v).getLsbD i = v.getLsbD i := bitOf_accessValue hi n v
  simp [lowByte, hi, hbit]

/-- A direct read that finds no value halts (R441). -/
theorem directRead_unwritten {r : Reg} {n : Nat} {s : State} (h : mayAccess s) (hn : regSizeOk r n = true)
    (hr : readReg r s = none) : directRead r n s = .next (afterHalt (.unwrittenRead (regOffset r)) s) := by
  rw [directRead_open h.1 h.2, taskRead, if_pos hn, regReadBy, hr]
  rfl

/-- A direct write that finds no room halts (R442). -/
theorem directWrite_full {r : Reg} {n : Nat} {v : Word} {s : State} (h : mayAccess s)
    (hok : regWriteOk r n v s = true)
    (hw : writeReg r v (s.emit (.regAcc (.task s.curTask) (regOffset r) n .write (accessValue n v))) = none) :
    directWrite r n v s = .next (afterHalt (.txWriteWhileFull (accessValue n v)) s) := by
  rw [directWrite_open h.1 h.2, taskWrite, if_pos hok, regWriteBy, hw]
  rfl

/-! ### SPI_DR, by a channel -/

/-- BLOCK_BASE is the first address of the register window (20_memory.md R200). -/
theorem window_blockBase (p : Params) : inWindow p p.blockBase = true ∧ windowOffset p p.blockBase = 0 := by
  simp [inWindow, windowOffset, Config.windowSize]

theorem dmaReadByte_unwritten {c : Chan} {a : Word} {s : State} (ha : a = s.par.blockBase)
    (h : s.spi.rxbuf = none) : dmaReadByte c a s = none := by
  obtain ⟨hin, hoff⟩ := window_blockBase s.par
  rw [dmaReadByte, ha, if_pos hin, if_pos hoff, regReadBy, readReg, readSpiDr_unwritten h]

theorem dmaReadByte_mem {c : Chan} {a : Word} {s : State} (hin : inWindow s.par a = false)
    (ha : admitted s.par a = true) :
    dmaReadByte c a s = some (memGet s.mem a.toNat, s.emit (.memRd (.dma c) a (memGet s.mem a.toNat))) := by
  rw [dmaReadByte, hin, memRead, if_pos ha]
  rfl

theorem dmaWriteByte_full {c : Chan} {a : Word} {s : State} (ha : a = s.par.blockBase)
    (h : s.spi.txe = false) (b : Byte) : dmaWriteByte c a b s = none := by
  obtain ⟨hin, hoff⟩ := window_blockBase s.par
  rw [dmaWriteByte, ha, if_pos hin, if_pos hoff]
  exact writeSpiDr_full (s := s.emit _) h _

/-- A source that gives no byte stops the channel (43_dma_engine.md R488). -/
theorem dmaTransfer_of_read_none {c : Chan} {s : State} (h : dmaReadByte c (s.dma c).src s = none) :
    dmaTransfer c s = dmaAccessError c s := by
  rw [dmaTransfer, h]

/-- A destination that takes no byte stops the channel; what the read did stays (43_dma_engine.md R488). -/
theorem dmaTransfer_of_write_none {c : Chan} {s s1 : State} {b : Byte}
    (hr : dmaReadByte c (s.dma c).src s = some (b, s1)) (hw : dmaWriteByte c (s.dma c).dst b s1 = none) :
    dmaTransfer c s = dmaAccessError c s1 := by
  simp only [dmaTransfer, hr, hw]

theorem runs_dma {c : Chan} {s : State} (hrun : running s) (he : dmaEnabled c s = true) :
    runs [.dma c] s = .next (dmaTransfer c s) := by
  rw [runs_single hrun, turn_on (a := .dma c) he, agentStep]

/-- Settles O18: the read by whether a byte was received and by its size, the channel's by its access error. -/
theorem spiDataRead : Obligations.SpiDataRead := by
  unfold Obligations.SpiDataRead
  refine ⟨fun s n h => ⟨fun hn => ⟨fun b hb => ?_, fun hnone => ?_⟩, fun h1 h4 => ?_⟩,
    fun s c hrun he hsrc hnone => ?_⟩
  · exact directRead_ok h.1 h.2 (regSizeOk_spiDr.mpr hn) (readSpiDr_received hb)
  · exact directRead_unwritten h (regSizeOk_spiDr.mpr hn) (readSpiDr_unwritten hnone)
  · exact directRead_size h.1 h.2 (regSizeOk_spiDr_of_ne h1 h4)
  · rw [runs_dma hrun he, dmaTransfer_of_read_none (dmaReadByte_unwritten hsrc hnone), dmaAccessError]

/-- Settles O19: the write by TXE and by its size, the channel's by its access error after the read. -/
theorem spiDataWrite : Obligations.SpiDataWrite := by
  unfold Obligations.SpiDataWrite
  refine ⟨fun s n v h => ⟨fun hn => ?_, fun h1 h4 => ?_⟩, fun s c hrun he hdst hin hadm hfull => ?_⟩
  · have hok : regWriteOk .spiDr n v s = true := by
      rw [regWriteOk_spiDr]
      exact regSizeOk_spiDr.mpr hn
    refine ⟨fun hempty => ⟨accessValue n v, lowByte_accessValue n v, ?_, ?_⟩, fun hfull => ⟨accessValue n v, ?_⟩⟩
    · rintro rfl
      rfl
    · exact directWrite_ok h.1 h.2 hok (writeSpiDr_empty (s := s.emit _) hempty v)
    · exact directWrite_full h hok (writeSpiDr_full (s := s.emit _) hfull v)
  · refine directWrite_refused h.1 h.2 ?_
    rw [regWriteOk_spiDr, regSizeOk_spiDr_of_ne h1 h4]
  · rw [runs_dma hrun he, dmaTransfer_of_write_none (dmaReadByte_mem hin hadm)
      (dmaWriteByte_full (s := s.emit _) hdst hfull _), dmaAccessError, emit_dma]
    rfl

end Sys2Proof.Safety
end

section
/-! PROOF. O28, O29, O30: the shift engine. START and FINISH are enabled by the flags, FINISH is the exchange of the byte in the shift register, and a command byte's instruction is that exchange (42_spi_transport.md R444, R445; 30_encoding.md R320). -/

namespace Sys2Proof.Safety

open Sys2Proof.Machine

/-- A MISO draw touches the inputs to come only. -/
theorem drawMiso_snd (s : State) : (drawMiso s).2 = s.setDraws (drawMiso s).2.draws := by
  obtain ⟨d, hd⟩ := drawMiso_eq s
  rw [hd]
  rfl

/-- The model's exchange is the state a statement names (R445). -/
theorem exchange_eq_afterExchange (b : Byte) (s : State) : exchange b s = afterExchange b s := by
  have hflags (m : Byte) : finishFlags s.spi m = if s.spi.rxne = true then { s.spi with bsy := false, ovr := true }
      else { s.spi with bsy := false, rxbuf := some m, rxne := true } := rfl
  rw [exchange, drawMiso_snd, hflags]
  rfl

theorem paceHolds_iff (s : State) : paceHolds s = true ↔ held s := by
  have hcnt : ¬ s.dma1.cnt = 0#16 ↔ 0 < s.dma1.cnt.toNat := by
    rw [Nat.pos_iff_ne_zero, ne_eq, BitVec.toNat_eq]
    rfl
  simp [paceHolds, held, hcnt, and_assoc]

theorem finishEnabled_of_not_held {s : State} (hb : s.spi.bsy = true) (h : ¬ held s) : finishEnabled s = true := by
  rw [← paceHolds_iff, Bool.not_eq_true] at h
  rw [finishEnabled, hb, h]
  rfl

theorem emitCommandByte_eq {s : State} (hh : s.halted = none) (hb : s.spi.bsy = true) (h : ¬ held s) (b : Byte) :
    emitCommandByte b s = .next (afterExchange b s) := by
  rw [emitCommandByte, if_neg (by simp [hh]), if_pos (finishEnabled_of_not_held hb h), exchange_eq_afterExchange]

theorem wRegisterByte_eq_or : ∀ r : BitVec 5, wRegisterByte r = 0x20#8 ||| r.setWidth 8 := by decide

/-- Settles O28: the four instructions are the exchange of their bytes. -/
theorem commandBytesGoOut : Obligations.CommandBytesGoOut := by
  unfold Obligations.CommandBytesGoOut
  intro s hh hb hfree
  have hemit := emitCommandByte_eq hh hb hfree
  exact ⟨fun r => wRegisterByte_eq_or r ▸ hemit (wRegisterByte r), hemit 0xA0, hemit 0xE1, hemit 0xE2⟩

/-! ### Turns of the shift engine -/

theorem turn_start {s : State} (htxe : s.spi.txe = false) (hb : s.spi.bsy = false) :
    turn .shift s = .next (spiStart s) := by
  have hstart : startEnabled s = true := by simp [startEnabled, htxe, hb]
  rw [turn_on (by simp [enabled, shiftEnabled, hstart]), agentStep, shiftStep, if_pos hstart]

/-- FINISH exchanges the byte in the shift register, a command byte or not. -/
theorem turn_finish {s : State} (hh : s.halted = none) (hb : s.spi.bsy = true) (h : ¬ held s) :
    turn .shift s = .next (afterExchange s.spi.shreg s) := by
  have hfin := finishEnabled_of_not_held hb h
  rw [turn_on (by simp [enabled, shiftEnabled, hfin]), agentStep, shiftStep, if_neg (by simp [startEnabled, hb])]
  cases hdec : decode (.fcb s.spi.shreg) with
  | ok i =>
    rw [← emitCommandByte_eq hh hb h]
    exact exec_fcb s hdec
  | error e => rw [← exchange_eq_afterExchange]

theorem turn_shift_idle {s : State} (hstart : startEnabled s = false) (hfin : finishEnabled s = false) :
    turn .shift s = .next s :=
  turn_off (by simp [enabled, shiftEnabled, hstart, hfin])

/-- Settles O29: with BSY = 0 the engine's turn is START or no move, by TXE. -/
theorem shiftStart : Obligations.ShiftStart := by
  unfold Obligations.ShiftStart
  intro s hrun hb
  rw [runs_single hrun]
  refine ⟨fun htxe => turn_start htxe hb, fun htxe => turn_shift_idle ?_ ?_⟩
  · simp [startEnabled, htxe]
  · simp [finishEnabled, hb]

/-- Settles O30: with BSY = 1 the engine's turn is FINISH or no move, by the hold of RX_PACE. -/
theorem shiftFinish : Obligations.ShiftFinish := by
  unfold Obligations.ShiftFinish
  intro s hrun hb
  rw [runs_single hrun]
  refine ⟨turn_finish hrun.2 hb, fun hheld => turn_shift_idle ?_ ?_⟩
  · simp [startEnabled, hb]
  · simp [finishEnabled, (paceHolds_iff s).mpr hheld]

end Sys2Proof.Safety
end

section
/-! PROOF. What a turn does not read. No access reads the tasks, the current task or the inputs to come, and no step the agents to come: so a run of named agents is their turns one after another (10_state.md R180). -/

namespace Sys2Proof.Safety

open Sys2Proof.Machine

/-! ### What an access does not read -/

/-- `s` with other tasks, another current task and other inputs to come, which no register reads. -/
def reframe (ts : List TaskState) (u : Nat) (d : Draws) (s : State) : State :=
  { s with tasks := ts, curTask := u, draws := d }

theorem readReg_reframe (r : Reg) (ts : List TaskState) (u : Nat) (d : Draws) (s : State) :
    readReg r (reframe ts u d s) = (readReg r s).map fun p => (p.1, reframe ts u d p.2) := by
  cases r with
  | spiDr => cases h : s.spi.rxbuf <;> simp [readReg, readSpiDr, reframe, h, State.setSpi]
  | dmaSrc n | dmaDst n | dmaCnt n | dmaCtrl n | dmaFlags n => cases n <;> rfl
  | _ => rfl

theorem dma_reframe (n : Chan) (ts : List TaskState) (u : Nat) (d : Draws) (s : State) :
    (reframe ts u d s).dma n = s.dma n := by cases n <;> rfl

theorem setDma_reframe (n : Chan) (c : DmaChan) (ts : List TaskState) (u : Nat) (d : Draws) (s : State) :
    (reframe ts u d s).setDma n c = reframe ts u d (s.setDma n c) := by cases n <;> rfl

theorem writeReg_reframe (r : Reg) (v : Word) (ts : List TaskState) (u : Nat) (d : Draws) (s : State) :
    writeReg r v (reframe ts u d s) = (writeReg r v s).map (reframe ts u d) := by
  cases r with
  | spiDr => cases h : s.spi.txe <;> simp [writeReg, writeSpiDr, reframe, h, State.setSpi]
  | csSet | csClr | ceSet | ceClr =>
    simp only [writeReg, writeCsSet, writeCsClr, writeCeSet, writeCeClr, Option.map_some, apply_ite (reframe ts u d)]
    rfl
  | dmaSrc n | dmaDst n | dmaCnt n | dmaFlags n => cases n <;> rfl
  | dmaCtrl n =>
    simp only [writeReg, writeDmaCtrl, dma_reframe, setDma_reframe, Option.map_some, apply_ite (reframe ts u d)]
    cases n <;> rfl
  | _ => rfl

theorem regWriteOk_reframe (r : Reg) (n : Nat) (v : Word) (ts : List TaskState) (u : Nat) (d : Draws) (s : State) :
    regWriteOk r n v (reframe ts u d s) = regWriteOk r n v s := by
  cases r with
  | dmaSrc c | dmaDst c | dmaCnt c | dmaCtrl c => simp [regWriteOk, regDmaBusy, dma_reframe]
  | _ => rfl

/-! ### The agents still to come -/

/-- `s` with `as` as the agents still to come. -/
def withAgents (as : List Agent) (s : State) : State := s.setDraws { s.draws with agents := as }

/-- `f` neither reads nor changes the agents still to come. -/
def Blind (f : State → State) : Prop := ∀ as s, f (withAgents as s) = withAgents as (f s)

theorem Blind.agents {f : State → State} (h : Blind f) (s : State) : (f s).draws.agents = s.draws.agents :=
  congrArg (fun s => s.draws.agents) (h s.draws.agents s)

theorem withAgents_eq_reframe (as : List Agent) (s : State) :
    withAgents as s = reframe s.tasks s.curTask { s.draws with agents := as } s := rfl

theorem readReg_withAgents (r : Reg) (as : List Agent) (s : State) :
    readReg r (withAgents as s) = (readReg r s).map fun p => (p.1, withAgents as p.2) := by
  rw [withAgents_eq_reframe, readReg_reframe]
  cases h : readReg r s with
  | none => rfl
  | some p =>
    have hsame := readReg_same (v := p.1) (s' := p.2) h
    simp only [Option.map_some, withAgents_eq_reframe, hsame.tasks, hsame.curTask, hsame.draws]

theorem writeReg_withAgents (r : Reg) (v : Word) (as : List Agent) (s : State) :
    writeReg r v (withAgents as s) = (writeReg r v s).map (withAgents as) := by
  rw [withAgents_eq_reframe, writeReg_reframe]
  cases h : writeReg r v s with
  | none => rfl
  | some s1 =>
    have hsame := writeReg_same h
    simp only [Option.map_some, withAgents_eq_reframe, hsame.tasks, hsame.curTask, hsame.draws]

/-- What an action answers, with the state it leaves replaced. -/
def Did.mapState {α : Type} (f : State → State) : Did α → Did α
  | .ok a s => .ok a (f s)
  | .raised e s => .raised e (f s)

theorem taskRead_withAgents (t : Nat) (r : Reg) (n : Nat) (as : List Agent) (s : State) :
    taskRead t r n (withAgents as s) = Did.mapState (withAgents as) (taskRead t r n s) := by
  unfold taskRead regReadBy
  rw [readReg_withAgents]
  by_cases hn : regSizeOk r n = true
  · rw [if_pos hn, if_pos hn]
    cases readReg r s <;> rfl
  · rw [if_neg hn, if_neg hn]
    rfl

theorem taskWrite_withAgents (t : Nat) (r : Reg) (n : Nat) (v : Word) (as : List Agent) (s : State) :
    taskWrite t r n v (withAgents as s) = Did.mapState (withAgents as) (taskWrite t r n v s) := by
  have hok : regWriteOk r n v (withAgents as s) = regWriteOk r n v s := regWriteOk_reframe r n v _ _ _ s
  have hw : regWriteBy (.task t) r n v (withAgents as s) = (regWriteBy (.task t) r n v s).map (withAgents as) :=
    writeReg_withAgents r v as (s.emit _)
  rw [taskWrite, taskWrite, hok, hw]
  by_cases hn : regWriteOk r n v s = true
  · rw [if_pos hn, if_pos hn]
    cases regWriteBy (.task t) r n v s <;> rfl
  · rw [if_neg hn, if_neg hn]
    rfl

theorem taskMemRead_withAgents (t : Nat) (a : Word) (as : List Agent) (s : State) :
    taskMemRead t a (withAgents as s) = Did.mapState (withAgents as) (taskMemRead t a s) := by
  have hpar : (withAgents as s).par = s.par := rfl
  rw [taskMemRead, taskMemRead, memRead, memRead, hpar]
  cases admitted s.par a <;> rfl

theorem taskMemWrite_withAgents (t : Nat) (a : Word) (b : Byte) (as : List Agent) (s : State) :
    taskMemWrite t a b (withAgents as s) = Did.mapState (withAgents as) (taskMemWrite t a b s) := by
  have hpar : (withAgents as s).par = s.par := rfl
  rw [taskMemWrite, taskMemWrite, memWrite, memWrite, hpar]
  cases admitted s.par a <;> rfl

/-! ### No step looks at the agents to come -/

namespace Blind

/-- A choice by a condition that does not look at the agents to come. -/
theorem ite (p : State → Prop) [DecidablePred p] (hp : ∀ as s, p (withAgents as s) ↔ p s) {f g : State → State}
    (hf : Blind f) (hg : Blind g) : Blind fun s => if p s then f s else g s := fun as s => by
  by_cases h : p s
  · simpa only [if_pos h, if_pos ((hp as s).mpr h)] using hf as s
  · simpa only [if_neg h, if_neg (mt (hp as s).mp h)] using hg as s

theorem raise (t : Nat) (p : Option Place) (e : Abnormal) : Blind (raise t p e) :=
  ite (fun s => (isFault e || s.par.errorPolicy == .fatal) = true) (fun _ _ => Iff.rfl) (fun _ _ => rfl)
    fun _ _ => by split <;> rfl

theorem gotoStep (t : Nat) (l : Label) (c : Locals) : Blind (gotoStep t l c) := fun _ _ => rfl

theorem startPhases (t : Nat) (ps : List Phase) (top : Option Invocation) (code data : Byte) :
    Blind (startPhases t ps top code data) := fun as s => by
  induction ps generalizing code data with
  | nil => rfl
  | cons p ps ih =>
    rcases p with op | ⟨dst, src, _ | n⟩
    · rfl
    · exact ih _ _
    · rfl

theorem returnOp (t : Nat) (code data : Byte) : Blind (returnOp t code data) := fun as s =>
  startPhases t _ _ code data as s

theorem stepRead {t : Nat} {l : Label} {r : Reg} {n : Nat} {k : Word → State → State} (hk : ∀ v, Blind (k v)) :
    Blind (stepRead t l r n k) := fun as s => by
  rw [Machine.stepRead, Machine.stepRead, taskRead_withAgents]
  cases taskRead t r n s with
  | ok v s1 => exact hk v as s1
  | raised e s1 => exact raise t _ e as s1

theorem stepWrite {t : Nat} {l : Label} {r : Reg} {n : Nat} {v : Word} {k : State → State} (hk : Blind k) :
    Blind (stepWrite t l r n v k) := fun as s => by
  rw [Machine.stepWrite, Machine.stepWrite, taskWrite_withAgents]
  cases taskWrite t r n v s with
  | ok _ s1 => exact hk as s1
  | raised e s1 => exact raise t _ e as s1

theorem stepMemRead {t : Nat} {l : Label} {a : Word} {k : Byte → State → State} (hk : ∀ b, Blind (k b)) :
    Blind (stepMemRead t l a k) := fun as s => by
  rw [Machine.stepMemRead, Machine.stepMemRead, taskMemRead_withAgents]
  cases taskMemRead t a s with
  | ok b s1 => exact hk b as s1
  | raised e s1 => exact raise t _ e as s1

theorem stepMemWrite {t : Nat} {l : Label} {a : Word} {b : Byte} {k : State → State} (hk : Blind k) :
    Blind (stepMemWrite t l a b k) := fun as s => by
  rw [Machine.stepMemWrite, Machine.stepMemWrite, taskMemWrite_withAgents]
  cases taskMemWrite t a b s with
  | ok _ s1 => exact hk as s1
  | raised e s1 => exact raise t _ e as s1

theorem stepLength {t : Nat} {l : Label} {n : Nat} {k : Nat → State → State} (hk : ∀ x, Blind (k x)) :
    Blind (stepLength t l n k) := fun as s =>
  ite (fun _ => (!frameLenOk n) = true) (fun _ _ => Iff.rfl) (raise t _ _)
    (ite (fun s => (!targetOk s.par (timerTarget s.par n)) = true) (fun _ _ => Iff.rfl) (fun as s => raise t _ _ as s)
      fun as s => hk _ as s) as s

/-! The shapes most steps have: an access, then the next label or the return. -/

theorem readThenGoto {t : Nat} {l l' : Label} {r : Reg} {n : Nat} {c : Word → Locals} :
    Blind (Machine.stepRead t l r n fun v => Machine.gotoStep t l' (c v)) :=
  stepRead fun _ => gotoStep _ _ _

theorem writeThenGoto {t : Nat} {l l' : Label} {r : Reg} {n : Nat} {v : Word} {c : Locals} :
    Blind (Machine.stepWrite t l r n v (Machine.gotoStep t l' c)) :=
  stepWrite (gotoStep _ _ _)

theorem writeThenReturn {t : Nat} {l : Label} {r : Reg} {n : Nat} {v : Word} {code data : Byte} :
    Blind (Machine.stepWrite t l r n v (Machine.returnOp t code data)) :=
  stepWrite (returnOp _ _ _)

theorem fetchThenGoto {t : Nat} {l l' : Label} {a : Word} {r : Reg} {n : Nat} {c : Locals} :
    Blind (Machine.stepMemRead t l a fun b =>
      Machine.stepWrite t l r n (byteWord b) (Machine.gotoStep t l' c)) :=
  stepMemRead fun _ => writeThenGoto

theorem stepCopy (t i : Nat) (c : Locals) : Blind (stepCopy t i c) := by
  have hstore (b : Byte) : Blind (Machine.stepMemWrite t (.copy i) (addrAdd c.dst i) b fun s =>
      if i + 1 < c.n then Machine.gotoStep t (.copy (i + 1)) c s else Machine.returnOp t codeOk 0x00#8 s) := by
    refine stepMemWrite fun as s => ?_
    split
    · rfl
    · exact returnOp _ _ _ as s
  intro as s
  unfold Machine.stepCopy
  cases c.src with
  | lit bs => exact hstore _ as s
  | mem a => exact stepMemRead hstore as s

theorem stepRdb (t : Nat) (l : RdbLabel) (c : Locals) : Blind (stepRdb t l c) := fun as s => by
  unfold Machine.stepRdb
  cases l with
  | r0 => exact readThenGoto as s
  | r1 => exact stepRead (fun _ => returnOp _ _ _) as s

theorem stepTxb (t : Nat) (l : TxbLabel) (c : Locals) : Blind (stepTxb t l c) := fun as s => by
  unfold Machine.stepTxb
  cases l with
  | b0 | b3 | b4 => exact readThenGoto as s
  | b1 | b2 | b5 => exact writeThenGoto as s
  | b6 => exact returnOp t _ _ as s

theorem stepTxp (t : Nat) (l : TxpLabel) (c : Locals) : Blind (stepTxp t l c) := fun as s => by
  unfold Machine.stepTxp
  cases l with
  | p0 => exact stepLength (fun _ => gotoStep _ _ _) as s
  | p1 | p5 | p7 | p9 => exact readThenGoto as s
  | p2 | p3 | p4 | p10 | p11 => exact writeThenGoto as s
  | p6 => exact fetchThenGoto as s
  | p8 => exact stepRead (fun _ => stepMemWrite (gotoStep _ _ _)) as s
  | p12 => exact returnOp t _ _ as s

theorem stepTxd (t : Nat) (l : TxdLabel) (c : Locals) : Blind (stepTxd t l c) := fun as s => by
  unfold Machine.stepTxd
  cases l with
  | d0 => exact stepLength (fun _ => gotoStep _ _ _) as s
  | d1 =>
    exact Blind.ite (fun s => s.owner.isSome = true) (fun _ _ => Iff.rfl) (raise t _ _)
      (g := fun s => Machine.gotoStep t (.txd .d2) c (s.setOwner (some t))) (fun _ _ => rfl) as s
  | d13 | t4 => exact readThenGoto as s
  | d14 => exact fetchThenGoto as s
  | d17 => rfl
  | d23 =>
    exact Blind.ite (fun _ => c.value ≠ Config.notifyExpected) (fun _ _ => Iff.rfl) (raise t _ _)
      (returnOp t _ _) as s
  | t3 => exact stepWrite (fun _ _ => rfl) as s
  | t5 => exact Blind.ite (fun s => s.spi.rxne = true) (fun _ _ => Iff.rfl) readThenGoto (gotoStep t _ _) as s
  | t10 => exact raise t _ _ as s
  | d2 | d3 | d4 | d5 | d6 | d7 | d8 | d9 | d10 | d11 | d12 | d15 | d16 | d18 | d19 | d20 | d21 | d22
  | t0 | t1 | t2 | t6 | t7 | t8 | t9 => exact writeThenGoto as s

theorem stepPulse (t : Nat) (l : PulseLabel) (c : Locals) : Blind (stepPulse t l c) := fun as s => by
  unfold Machine.stepPulse
  cases l with
  | tp0 =>
    exact Blind.ite (fun s => (!targetOk s.par Config.cePulseTicks) = true) (fun _ _ => Iff.rfl) (raise t _ _)
      writeThenGoto as s
  | tp1 => exact writeThenGoto as s
  | tp2 => exact readThenGoto as s
  | tp3 => exact writeThenReturn as s

theorem stepInitIO (t : Nat) (l : InitLabel) (c : Locals) : Blind (stepInitIO t l c) := fun as s => by
  unfold Machine.stepInitIO
  cases l with
  | i0 | i1 => exact writeThenGoto as s
  | i2 => exact writeThenReturn as s

theorem operationStep (t : Nat) (c : Cur) : Blind (operationStep t c) := fun as s => by
  obtain ⟨l, loc⟩ := c
  cases l with
  | rdb l => exact stepRdb t l loc as s
  | txb l => exact stepTxb t l loc as s
  | txp l => exact stepTxp t l loc as s
  | txd l => exact stepTxd t l loc as s
  | scs => exact writeThenReturn as s
  | pulse l => exact stepPulse t l loc as s
  | initIO l => exact stepInitIO t l loc as s
  | copy i => exact stepCopy t i loc as s

theorem setCurTask (t : Nat) : Blind fun s => s.setCurTask t := fun _ _ => rfl

theorem spiStart : Blind spiStart := fun _ _ => rfl

theorem afterExchange (b : Byte) : Blind (afterExchange b) := fun as s => by
  have hm : drawMiso (withAgents as s) = ((drawMiso s).1, withAgents as (drawMiso s).2) := by
    unfold drawMiso
    cases h : s.draws.miso <;> simp [withAgents, State.setDraws, h]
  unfold Safety.afterExchange
  rw [hm]
  rfl

end Blind

end Sys2Proof.Safety
end

section
/-! PROOF. A run step by step. A state with task `t` at a label is carried from label to label: one rule for each shape of step, of an operation's label (10_state.md R106, R107). -/

namespace Sys2Proof.Safety

open Sys2Proof.Machine

/-! ### Turn after turn -/

theorem runs_nil (s : State) : runs [] s = .next s := rfl

/-- A run is its first agent's turn and the run of the others. -/
theorem runs_cons {a : Agent} {as : List Agent} {s : State} {f : State → State} (hrun : running s) (hf : Blind f)
    (hturn : ∀ bs, turn a (withAgents bs s) = .next (f (withAgents bs s))) : runs (a :: as) s = runs as (f s) := by
  have hstep := run_succ (n := as.length) (s := withAgents (a :: as ++ s.draws.agents) s) hrun rfl
    (hturn (as ++ s.draws.agents))
  have hrest : runs as (f s) =
      Host.Core.run Sys2Proof.core as.length (withAgents (as ++ (f s).draws.agents) (f s)) := rfl
  rw [hrest, hf.agents, ← hf]
  exact hstep

/-- The tasks' fields and the current task of `s` as task `t`'s step at `l` finds them: `k` with that label. -/
def atLabel (t : Nat) (k : TaskState) (l : Label) (c : Locals) (s : State) : State :=
  onTask t { k with ctx := { k.ctx with cur := some ⟨l, c⟩ } } s

theorem atStep_atLabel {t : Nat} {s : State} (ht : t < s.tasks.length) (k : TaskState) (l : Label) (c : Locals) :
    atStep t l c k.ctx.phases (atLabel t k l c s) := by
  have hlen : t < (atLabel t k l c s).tasks.length := by simpa [atLabel, onTask] using ht
  rw [atStep, atLabel, taskAt_onTask ht]
  exact ⟨hlen, rfl, rfl⟩

theorem setCurTask_eq_atLabel {t : Nat} {l : Label} {c : Locals} {ps : List Phase} {s : State}
    (hat : atStep t l c ps s) : s.setCurTask t = atLabel t (s.taskAt t) l c s := by
  obtain ⟨ht, hcur, -⟩ := hat
  rw [← onTask_taskAt ht, atLabel, ← hcur]

theorem running_atLabel {t : Nat} {k : TaskState} {l : Label} {c : Locals} {s : State} (hrun : running s) :
    running (atLabel t k l c s) := by
  obtain ⟨hlaunch, hhalt⟩ := hrun
  exact ⟨by simpa [atLabel, onTask] using hlaunch, hhalt⟩

theorem gotoStep_atLabel {t : Nat} {s : State} (ht : t < s.tasks.length) (k : TaskState) (l l' : Label)
    (c c' : Locals) : gotoStep t l' c' (atLabel t k l c s) = atLabel t k l' c' s := by
  rw [gotoStep, State.setCtx, atLabel, taskAt_onTask ht]
  simp [State.setTask, onTask, atLabel]

/-- A task in an operation whose hold allows its step takes it. -/
theorem runs_task {t : Nat} {l : Label} {c : Locals} {ps : List Phase} {as : List Agent} {s : State}
    (hrun : running s) (hat : atStep t l c ps s) (hhold : holdOk t ⟨l, c⟩ s = true) :
    runs (.task t :: as) s = runs as (operationStep t ⟨l, c⟩ (atLabel t (s.taskAt t) l c s)) := by
  rw [← setCurTask_eq_atLabel hat]
  exact runs_cons (f := fun s => operationStep t ⟨l, c⟩ (s.setCurTask t)) hrun
    (fun bs s => Blind.operationStep t ⟨l, c⟩ bs (s.setCurTask t))
    fun bs => turn_task (s := withAgents bs s) hat hhold

theorem runs_start {as : List Agent} {s : State} (hrun : running s) (htxe : s.spi.txe = false)
    (hb : s.spi.bsy = false) : runs (.shift :: as) s = runs as (spiStart s) :=
  runs_cons hrun Blind.spiStart fun bs => turn_start (s := withAgents bs s) htxe hb

theorem runs_finish {as : List Agent} {s : State} (hrun : running s) (hb : s.spi.bsy = true) (h : ¬ held s) :
    runs (.shift :: as) s = runs as (afterExchange s.spi.shreg s) :=
  runs_cons hrun (Blind.afterExchange _) fun bs => turn_finish (s := withAgents bs s) hrun.2 hb h

/-! ### Shapes of a task's step, from a state at a label -/

theorem onTask_eq_reframe (t : Nat) (k : TaskState) (s : State) :
    onTask t k s = reframe (s.tasks.set t k) t s.draws s := rfl

theorem readReg_onTask {r : Reg} {v : Word} {s s1 : State} (h : readReg r s = some (v, s1)) (t : Nat) (k : TaskState) :
    readReg r (onTask t k s) = some (v, onTask t k s1) := by
  have hsame := readReg_same h
  rw [onTask_eq_reframe, readReg_reframe, h, onTask_eq_reframe, hsame.tasks, hsame.draws]
  rfl

theorem writeReg_onTask {r : Reg} {v : Word} {s s1 : State} (h : writeReg r v s = some s1) (t : Nat) (k : TaskState) :
    writeReg r v (onTask t k s) = some (onTask t k s1) := by
  have hsame := writeReg_same h
  rw [onTask_eq_reframe, writeReg_reframe, h, onTask_eq_reframe, hsame.tasks, hsame.draws]
  rfl

/-- `s` with task `t`'s access recorded. -/
def recorded (t : Nat) (r : Reg) (n : Nat) (d : Dir) (v : Word) (s : State) : State :=
  s.emit (.regAcc (.task t) (regOffset r) n d v)

/-- The machine takes steps and task `t` exists. -/
structure Ready (t : Nat) (s : State) : Prop where
  running : running s
  isTask : t < s.tasks.length

theorem Ready.of_sameOutside {t : Nat} {s s1 : State} (h : Ready t s) (hsame : SameOutside s s1) : Ready t s1 := by
  obtain ⟨⟨hlaunch, hhalt⟩, ht⟩ := h
  exact ⟨⟨by rw [hsame.par, hsame.tasks, hlaunch], by rw [hsame.halted, hhalt]⟩, by rw [hsame.tasks]; exact ht⟩

section Shapes

variable {t : Nat} {k : TaskState} {l : Label} {c : Locals} {s s1 : State} {r : Reg} {n : Nat} {v : Word}

theorem stepRead_atLabel {f : Word → State → State} (hn : regSizeOk r n = true) (hr : readReg r s = some (v, s1)) :
    stepRead t l r n f (atLabel t k l c s) = f v (atLabel t k l c (recorded t r n .read v s1)) :=
  stepRead_ok hn (readReg_onTask hr t _)

theorem stepWrite_atLabel {f : State → State} (hok : regWriteOk r n v s = true)
    (hw : writeReg r v (recorded t r n .write (accessValue n v) s) = some s1) :
    stepWrite t l r n v f (atLabel t k l c s) = f (atLabel t k l c s1) :=
  stepWrite_ok (hok ▸ regWriteOk_reframe r n v _ _ _ s) (writeReg_onTask hw t _)

variable {as : List Agent} {X : Host.Outcome State Fault Refusal}

/-- The turn of a task at a label. -/
theorem runs_atLabel (h : Ready t s) (hhold : holdOk t ⟨l, c⟩ (atLabel t k l c s) = true) :
    runs (.task t :: as) (atLabel t k l c s) = runs as (operationStep t ⟨l, c⟩ (atLabel t k l c s)) := by
  obtain ⟨hrun, ht⟩ := h
  have hat := atStep_atLabel ht k l c
  have hset : onTask t ((atLabel t k l c s).taskAt t) (atLabel t k l c s) = atLabel t k l c s := onTask_taskAt hat.1
  have hsame := setCurTask_eq_atLabel hat
  rw [runs_task (running_atLabel hrun) hat hhold, ← hsame]
  rfl

/-- A step that goes to the next label from the fields `k'` and the state `s1` it has reached. -/
theorem runs_goto {k' : TaskState} (h : Ready t s) (h1 : Ready t s1) (l' : Label) (c' : Locals)
    (hhold : holdOk t ⟨l, c⟩ (atLabel t k l c s) = true)
    (hop : operationStep t ⟨l, c⟩ (atLabel t k l c s) = gotoStep t l' c' (atLabel t k' l c s1))
    (hrest : Ready t s1 → runs as (atLabel t k' l' c' s1) = X) : runs (.task t :: as) (atLabel t k l c s) = X := by
  rw [runs_atLabel h hhold, hop, gotoStep_atLabel h1.isTask, hrest h1]

/-- A step that reads a register and goes to the next label. -/
theorem runs_read (h : Ready t s) (n : Nat) (l' : Label) (c' : Locals)
    (hr : readReg r s = some (v, s1)) (hn : regSizeOk r n = true)
    (hhold : holdOk t ⟨l, c⟩ (atLabel t k l c s) = true)
    (hop : operationStep t ⟨l, c⟩ (atLabel t k l c s) =
      stepRead t l r n (fun _ => gotoStep t l' c') (atLabel t k l c s))
    (hrest : Ready t (recorded t r n .read v s1) → runs as (atLabel t k l' c' (recorded t r n .read v s1)) = X) :
    runs (.task t :: as) (atLabel t k l c s) = X :=
  runs_goto h (h.of_sameOutside ((readReg_same hr).trans (.emit s1 _))) l' c' hhold
    (hop.trans (stepRead_atLabel hn hr)) hrest

/-- A step that writes a register and goes to the next label. -/
theorem runs_write (h : Ready t s) (n : Nat) (l' : Label) (c' : Locals)
    (hw : writeReg r v (recorded t r n .write (accessValue n v) s) = some s1) (hok : regWriteOk r n v s = true)
    (hhold : holdOk t ⟨l, c⟩ (atLabel t k l c s) = true)
    (hop : operationStep t ⟨l, c⟩ (atLabel t k l c s) =
      stepWrite t l r n v (gotoStep t l' c') (atLabel t k l c s))
    (hrest : Ready t s1 → runs as (atLabel t k l' c' s1) = X) : runs (.task t :: as) (atLabel t k l c s) = X :=
  runs_goto h (h.of_sameOutside (regWriteBy_same hw)) l' c' hhold (hop.trans (stepWrite_atLabel hok hw)) hrest

/-- A step that returns (OK, data) from the state `s1` it has reached. -/
theorem runs_return {data : Byte} (h : Ready t s) (ht : t < s1.tasks.length)
    (hhold : holdOk t ⟨l, c⟩ (atLabel t k l c s) = true)
    (hop : operationStep t ⟨l, c⟩ (atLabel t k l c s) = returnOp t codeOk data (atLabel t k l c s1)) :
    runs [.task t] (atLabel t k l c s) = .next (afterReturn t k data k.ctx.phases s1) := by
  rw [runs_atLabel h hhold, hop, runs_nil, atLabel, returnOp_afterReturn ht]

end Shapes

/-- A task's run starts at its label, where its hold allows the step. -/
theorem runs_eq_atLabel {t : Nat} {l : Label} {c : Locals} {ps : List Phase} {as : List Agent} {s : State}
    (hrun : running s) (hat : atStep t l c ps s) (hhold : holdOk t ⟨l, c⟩ s = true) :
    runs (.task t :: as) s = runs (.task t :: as) (atLabel t (s.taskAt t) l c s) := by
  have hsame := setCurTask_eq_atLabel hat
  rw [runs_task hrun hat hhold, runs_atLabel ⟨hrun, hat.1⟩ (hsame ▸ hhold)]

theorem accessValue_byteWord (b : Byte) : accessValue 1 (byteWord b) = byteWord b := by
  revert b; decide

theorem lowByte_byteWord (b : Byte) : lowByte (byteWord b) = b := by
  simp [lowByte, byteWord, BitVec.extractLsb'_setWidth_of_le]

/-! ### One byte through the shift engine -/

/-- Task `t`'s read of SPI_SR. -/
def statusRead (t : Nat) (s : State) : State := recorded t .spiSr 4 .read (statusWord s.spi) s

/-- Task `t`'s byte write of SPI_DR with TXE = 1. -/
def byteLoaded (t : Nat) (b : Byte) (s : State) : State :=
  (recorded t .spiDr 1 .write (byteWord b) s).setSpi { s.spi with txbuf := b, txe := false }

theorem writeReg_spiDr_byte {s : State} (htxe : s.spi.txe = true) (t : Nat) (b : Byte) :
    writeReg .spiDr (byteWord b) (recorded t .spiDr 1 .write (accessValue 1 (byteWord b)) s) =
      some (byteLoaded t b s) := by
  have hw := writeSpiDr_empty (s := recorded t .spiDr 1 .write (accessValue 1 (byteWord b)) s) htxe (byteWord b)
  rw [lowByte_byteWord, accessValue_byteWord] at hw
  rw [accessValue_byteWord]
  exact hw

/-- Task `t`'s byte read of SPI_DR that returns `b`. -/
def byteTaken (t : Nat) (b : Byte) (s : State) : State :=
  recorded t .spiDr 1 .read (byteWord b) (s.setSpi { s.spi with rxne := false })

/-- What is drawn depends on the inputs to come only. -/
theorem drawMiso_congr {s s1 : State} (h : s1.draws = s.draws) :
    (drawMiso s1).1 = (drawMiso s).1 ∧ (drawMiso s1).2.draws = (drawMiso s).2.draws := by
  unfold drawMiso
  rw [h]
  cases s.draws.miso <;> exact ⟨rfl, rfl⟩

/-- The held byte of `s` went through the shift register: its exchange for the byte that `s0` draws, which is
received. -/
def byteShifted (s0 s : State) : State :=
  { s with
    draws := (drawMiso s0).2.draws
    spi := { s.spi with
      shreg := s.spi.txbuf, txe := true, bsy := false, rxbuf := some (drawMiso s0).1, rxne := true }
    hist := s.hist ++ [.exchange s.spi.txbuf (drawMiso s0).1 s.cs.asserted] }

/-- START and FINISH of a held byte, nothing being received before. -/
theorem runs_shiftByte {as : List Agent} {s0 s : State} (hrun : running s) (hd : s.draws = s0.draws)
    (htxe : s.spi.txe = false) (hb : s.spi.bsy = false) (hrx : s.spi.rxne = false) :
    runs (.shift :: .shift :: as) s = runs as (byteShifted s0 s) := by
  have hfree : ¬ held (spiStart s) := fun h => by
    obtain ⟨-, hne, -⟩ := h
    exact Bool.false_ne_true (hrx.symm.trans hne)
  have hshift : afterExchange s.spi.txbuf (spiStart s) = byteShifted s0 s := by
    obtain ⟨hm, hdraws⟩ := drawMiso_congr (s1 := spiStart s) hd
    rw [afterExchange, hm, hdraws, if_neg (by simp [spiStart, startFlags, hrx])]
    rfl
  rw [runs_start hrun htxe hb, runs_finish (s := spiStart s) hrun rfl hfree, ← hshift]
  rfl

/-- The same while task `t` waits at a label. -/
theorem runs_byteShift {t : Nat} {k : TaskState} {l : Label} {c : Locals} {as : List Agent} {s : State}
    {X : Host.Outcome State Fault Refusal} (h : Ready t s) (s0 : State) (hd : s.draws = s0.draws)
    (htxe : s.spi.txe = false) (hb : s.spi.bsy = false) (hrx : s.spi.rxne = false)
    (hrest : Ready t (byteShifted s0 s) → runs as (atLabel t k l c (byteShifted s0 s)) = X) :
    runs (.shift :: .shift :: as) (atLabel t k l c s) = X := by
  have hrun := running_atLabel (t := t) (k := k) (l := l) (c := c) h.running
  rw [runs_shiftByte hrun (s0 := s0) hd htxe hb hrx]
  exact hrest ⟨h.running, h.isTask⟩

/-! ### The steps on the SPI data path and on CS -/

section ByteSteps

variable {t : Nat} {k : TaskState} {l : Label} {c : Locals} {s : State} {as : List Agent}
  {X : Host.Outcome State Fault Refusal} (h : Ready t s) (l' : Label) (c' : Locals)
include h

theorem runs_statusRead (hhold : holdOk t ⟨l, c⟩ (atLabel t k l c s) = true)
    (hop : operationStep t ⟨l, c⟩ (atLabel t k l c s) =
      stepRead t l .spiSr 4 (fun _ => gotoStep t l' c') (atLabel t k l c s))
    (hrest : Ready t (statusRead t s) → runs as (atLabel t k l' c' (statusRead t s)) = X) :
    runs (.task t :: as) (atLabel t k l c s) = X :=
  runs_read h 4 l' c' (readReg_spiSr s) rfl hhold hop hrest

theorem runs_byteLoad (b : Byte) (htxe : s.spi.txe = true) (hhold : holdOk t ⟨l, c⟩ (atLabel t k l c s) = true)
    (hop : operationStep t ⟨l, c⟩ (atLabel t k l c s) =
      stepWrite t l .spiDr 1 (byteWord b) (gotoStep t l' c') (atLabel t k l c s))
    (hrest : Ready t (byteLoaded t b s) → runs as (atLabel t k l' c' (byteLoaded t b s)) = X) :
    runs (.task t :: as) (atLabel t k l c s) = X :=
  runs_write h 1 l' c' (writeReg_spiDr_byte htxe t b) rfl hhold hop hrest

theorem runs_byteTake {b : Byte} (hbuf : s.spi.rxbuf = some b)
    (hhold : holdOk t ⟨l, c⟩ (atLabel t k l c s) = true)
    (hop : operationStep t ⟨l, c⟩ (atLabel t k l c s) =
      stepRead t l .spiDr 1 (fun _ => gotoStep t l' c') (atLabel t k l c s))
    (hrest : Ready t (byteTaken t b s) → runs as (atLabel t k l' c' (byteTaken t b s)) = X) :
    runs (.task t :: as) (atLabel t k l c s) = X :=
  runs_read h 1 l' c' (r := .spiDr) (readSpiDr_received hbuf) rfl hhold hop hrest

theorem runs_csWrite (level : Bool) (hhold : holdOk t ⟨l, c⟩ (atLabel t k l c s) = true)
    (hop : operationStep t ⟨l, c⟩ (atLabel t k l c s) =
      stepWrite t l (csReg level) 4 1 (gotoStep t l' c') (atLabel t k l c s))
    (hrest : Ready t (csWritten t level s) → runs as (atLabel t k l' c' (csWritten t level s)) = X) :
    runs (.task t :: as) (atLabel t k l c s) = X := by
  refine runs_write h 4 l' c' (s1 := csWritten t level s) ?_ (regWriteOk_csReg level 1 s) hhold hop hrest
  rw [csWritten, ← regOffset_csReg]
  exact writeReg_csReg_one level (recorded t (csReg level) 4 .write 1 s)

/-- Task `t`'s read of the byte at `a`. -/
def memFetched (t : Nat) (a : Word) (s : State) : State := s.emit (.memRd (.task t) a (memGet s.mem a.toNat))

/-- A step that fetches a byte of memory into SPI_DR. -/
theorem runs_fetch {a : Word} (hadm : admitted s.par a = true) (htxe : s.spi.txe = true)
    (hhold : holdOk t ⟨l, c⟩ (atLabel t k l c s) = true)
    (hop : operationStep t ⟨l, c⟩ (atLabel t k l c s) =
      stepMemRead t l a (fun b => stepWrite t l .spiDr 1 (byteWord b) (gotoStep t l' c')) (atLabel t k l c s))
    (hrest : Ready t (byteLoaded t (memGet s.mem a.toNat) (memFetched t a s)) →
      runs as (atLabel t k l' c' (byteLoaded t (memGet s.mem a.toNat) (memFetched t a s))) = X) :
    runs (.task t :: as) (atLabel t k l c s) = X := by
  have hfetch :
      stepMemRead t l a (fun b => stepWrite t l .spiDr 1 (byteWord b) (gotoStep t l' c')) (atLabel t k l c s) =
      stepWrite t l .spiDr 1 (byteWord (memGet s.mem a.toNat)) (gotoStep t l' c')
        (atLabel t k l c (memFetched t a s)) :=
    stepMemRead_ok (s := atLabel t k l c s) hadm
  have hload := stepWrite_atLabel (t := t) (k := k) (l := l) (c := c) (n := 1) (f := gotoStep t l' c')
    (s := memFetched t a s) rfl (writeReg_spiDr_byte (s := memFetched t a s) htxe t (memGet s.mem a.toNat))
  exact runs_goto (s1 := byteLoaded t (memGet s.mem a.toNat) (memFetched t a s)) h ⟨h.running, h.isTask⟩ l' c' hhold
    (hop.trans (hfetch.trans hload)) hrest

/-- `s` with task `t`'s word write of `v` to `r` done. -/
def written (t : Nat) (r : Reg) (v : Word) (s : State) : State :=
  (writeReg r v (recorded t r 4 .write v s)).getD s

/-- A step that writes a word to a register other than SPI_DR. -/
theorem runs_word (r : Reg) (v : Word) (hr : r ≠ .spiDr) (hok : regWriteOk r 4 v s = true)
    (hhold : holdOk t ⟨l, c⟩ (atLabel t k l c s) = true)
    (hop : operationStep t ⟨l, c⟩ (atLabel t k l c s) =
      stepWrite t l r 4 v (gotoStep t l' c') (atLabel t k l c s))
    (hrest : Ready t (written t r v s) → runs as (atLabel t k l' c' (written t r v s)) = X) :
    runs (.task t :: as) (atLabel t k l c s) = X := by
  obtain ⟨s1, hw⟩ := regWriteBy_total hr (.task t) 4 v s
  have hw' : writeReg r v (recorded t r 4 .write v s) = some s1 := hw
  have hs1 : written t r v s = s1 := by rw [written, hw', Option.getD_some]
  exact runs_write h 4 l' c' hw hok hhold hop (hs1 ▸ hrest)

end ByteSteps

end Sys2Proof.Safety
end

section
/-! PROOF. O38, O39, O45: ReadByte, TransmitByte and the checks that open the longer transports (42_spi_transport.md R450, R452-R454, R457, R462; 41_timer.md R428). -/

namespace Sys2Proof.Safety

open Sys2Proof.Machine

/-- Settles O38: the status read and the byte read, then the return; without a byte the step holds. -/
theorem readByteRuns : Obligations.ReadByteRuns := by
  unfold Obligations.ReadByteRuns
  intro s t c ps hrun hrx hat
  refine ⟨fun hne => ?_, fun hne => ?_⟩
  · obtain ⟨r, hr⟩ := Option.isSome_iff_exists.mp (hrx hne)
    obtain ⟨ht, -, rfl⟩ := id hat
    refine ⟨r, hr, ?_⟩
    rw [runs_eq_atLabel hrun hat hne]
    refine runs_statusRead ⟨hrun, ht⟩ (.rdb .r1) c hne rfl fun h => ?_
    have hread : operationStep t ⟨.rdb .r1, c⟩ (atLabel t (s.taskAt t) (.rdb .r1) c (statusRead t s)) =
        returnOp t codeOk (lowByte (byteWord r))
          (atLabel t (s.taskAt t) (.rdb .r1) c (byteTaken t r (statusRead t s))) :=
      stepRead_atLabel (f := fun v => returnOp t codeOk (lowByte v)) rfl (readSpiDr_received hr)
    rw [lowByte_byteWord] at hread
    rw [runs_return (s1 := byteTaken t r (statusRead t s)) h ht rfl hread]
    simp [byteTaken, recorded, statusRead, State.emit, State.setSpi, regOffset, byteWord]
  · rw [runs_single hrun, turn_task_holds hat hne]

theorem spiClean_iff {s : State} :
    spiClean s = true ↔ s.spi.txe = true ∧ s.spi.bsy = false ∧ s.spi.rxne = false := by
  simp [spiClean, and_assoc]

/-- Settles O39, step by step: the label reached and the state it is reached in. -/
theorem transmitByteRuns : Obligations.TransmitByteRuns := by
  unfold Obligations.TransmitByteRuns
  intro s t c ps hrun hat hclean m p
  obtain ⟨htxe, hb, hrx⟩ := spiClean_iff.mp hclean
  obtain ⟨ht, -, rfl⟩ := id hat
  rw [runs_eq_atLabel hrun hat htxe]
  refine runs_statusRead ⟨hrun, ht⟩ (.txb .b1) c htxe rfl fun h => ?_
  refine runs_csWrite h (.txb .b2) c true rfl rfl fun h => ?_
  refine runs_byteLoad h (.txb .b3) c c.byte htxe rfl rfl fun h => ?_
  refine runs_byteShift h s rfl rfl hb hrx fun h => ?_
  refine runs_statusRead h (.txb .b4) c rfl rfl fun h => ?_
  refine runs_byteTake h (.txb .b5) c rfl rfl rfl fun h => ?_
  refine runs_csWrite h (.txb .b6) c false rfl rfl fun h => ?_
  rw [runs_return h h.isTask rfl rfl]
  refine congrArg (fun s1 => Host.Outcome.next (afterReturn t (s.taskAt t) 0x00#8 (s.taskAt t).ctx.phases s1)) ?_
  simp [csWritten, byteTaken, statusRead, byteShifted, byteLoaded, recorded, State.emit, State.setSpi, csEvents, htxe,
    hb, p, m, regOffset, byteWord]
  rfl

/-! ### The checks of P0, D0 and D1 -/

theorem frameLenOk_iff (n : Nat) : frameLenOk n = true ↔ 1 ≤ n ∧ n ≤ 32 := by
  rw [frameLenOk, Bool.and_eq_true, decide_eq_true_iff, decide_eq_true_iff]
  rfl

theorem targetOk_iff (p : Params) (x : Nat) : targetOk p x = true ↔ x ≤ 2 ^ p.timerWidth - 1 := by
  simp [targetOk]

theorem stepLength_ok {t : Nat} {l : Label} {n : Nat} {f : Nat → State → State} {s : State} (h1 : 1 ≤ n)
    (h32 : n ≤ 32) (hT : n * s.par.timePerByte ≤ 2 ^ s.par.timerWidth - 1) :
    stepLength t l n f s = f (n * s.par.timePerByte) s := by
  have hlen := (frameLenOk_iff n).mpr ⟨h1, h32⟩
  have htarget := (targetOk_iff s.par (timerTarget s.par n)).mpr hT
  rw [stepLength, hlen, htarget]
  rfl

/-- An error, not a fault, raised by a step, as the state a statement names. -/
theorem raise_step_eq_failed {e : Abnormal} (he : isFault e = false) (t : Nat) (l : Label) (s : State) :
    raise t (some (.step l)) e (s.setCurTask t) = failed t l e (abnormalCode e) [] s := by
  cases hp : s.par.errorPolicy with
  | fatal => simp [raise, failed, he, hp, haltWith, State.setHalted, State.emit, State.setCurTask]
  | report =>
    by_cases ht : t < s.tasks.length
    · simp [raise, failed, he, hp, complete, State.setResult, State.setCtx, State.setActive, State.setTask, State.emit,
        State.taskAt, State.setCurTask, ht]
    · simp [raise, failed, he, hp, complete, State.setResult, State.setCtx, State.setActive, State.setTask, State.emit,
        State.taskAt, State.setCurTask, List.set_eq_of_length_le (Nat.le_of_not_lt ht)]

/-- Step D1 takes a free token. -/
theorem tokenTaken {t : Nat} {k : TaskState} {c : Locals} {s : State} (h : s.owner = none) :
    operationStep t ⟨.txd .d1, c⟩ (atLabel t k (.txd .d1) c s) =
      gotoStep t (.txd .d2) c (atLabel t k (.txd .d1) c { s with owner := some t }) := by
  have hfree : ¬ (atLabel t k (.txd .d1) c s).owner.isSome = true := by
    rw [show (atLabel t k (.txd .d1) c s).owner = none from h]
    nofun
  exact if_neg hfree

/-- Settles O45: P0 and D0 by the length check they share, D1 by the token. -/
theorem transportChecks : Obligations.TransportChecks := by
  unfold Obligations.TransportChecks
  intro s t l c ps hrun hat
  have hturn (hhold : holdOk t ⟨l, c⟩ s = true) :
      runs [.task t] s = .next (operationStep t ⟨l, c⟩ (s.setCurTask t)) := by
    rw [runs_single hrun, turn_task hat hhold]
  have hlen (hl : l = .txp .p0 ∨ l = .txd .d0) :
      ∃ f, runs [.task t] s = .next (stepLength t l c.n f (s.setCurTask t)) := by
    rcases hl with rfl | rfl
    · exact ⟨fun target => gotoStep t (.txp .p1) { c with target }, hturn rfl⟩
    · exact ⟨fun target => gotoStep t (.txd .d1) { c with target }, hturn rfl⟩
  refine ⟨fun hl hn => ?_, fun hl h1 h32 hT => ?_, ?_, ?_⟩
  · obtain ⟨f, hf⟩ := hlen hl
    have hbad : frameLenOk c.n = false := by
      rw [← Bool.not_eq_true, frameLenOk_iff]
      omega
    rw [hf, stepLength, hbad]
    exact congrArg Host.Outcome.next (raise_step_eq_failed (e := .invalidLength c.n) rfl t l s)
  · obtain ⟨f, hf⟩ := hlen hl
    have hgood : frameLenOk c.n = true := (frameLenOk_iff _).mpr ⟨h1, h32⟩
    have hbad : targetOk (s.setCurTask t).par (timerTarget (s.setCurTask t).par c.n) = false := by
      rw [← Bool.not_eq_true, targetOk_iff]
      exact Nat.not_le.mpr hT
    rw [hf, stepLength, hgood, hbad]
    exact congrArg Host.Outcome.next
      (raise_step_eq_failed (e := .timerTargetOutOfRange (c.n * s.par.timePerByte)) rfl t l s)
  · rintro rfl howner
    have hheld : (s.setCurTask t).owner.isSome = true := Option.isSome_iff_ne_none.mpr howner
    have hop : operationStep t ⟨.txd .d1, c⟩ (s.setCurTask t) =
        raise t (some (.step (.txd .d1))) .transactionInProgress (s.setCurTask t) := if_pos hheld
    rw [hturn rfl, hop]
    exact congrArg Host.Outcome.next (raise_step_eq_failed (e := .transactionInProgress) rfl t (.txd .d1) s)
  · rintro rfl howner
    rw [runs_eq_atLabel hrun hat rfl]
    exact runs_goto (s1 := { s with owner := some t }) ⟨hrun, hat.1⟩ ⟨hrun, hat.1⟩ (.txd .d2) c rfl
      (tokenTaken howner) fun _ => rfl

end Sys2Proof.Safety
end

section
/-! PROOF. O43: TransmitPolling's steps around its byte loop (42_spi_transport.md R454). -/

namespace Sys2Proof.Safety

open Sys2Proof.Machine

theorem readReg_tmrIer (s : State) : readReg .tmrIer s = some (BitVec.ofNat 32 s.tmr.ovfie.toNat, s) := by
  rw [← bitWord_zero]
  rfl

theorem bitOf_ofNat_toNat (b : Bool) : bitOf (BitVec.ofNat 32 b.toNat) 0 = b := by
  cases b <;> rfl

/-- The length check goes on with the target where both checks pass. -/
theorem runs_stepLength {t : Nat} {k : TaskState} {l : Label} {c : Locals} {s : State} {as : List Agent}
    {X : Host.Outcome State Fault Refusal} (h : Ready t s) (l' : Label) (h1 : 1 ≤ c.n) (h32 : c.n ≤ 32)
    (hT : c.n * s.par.timePerByte ≤ 2 ^ s.par.timerWidth - 1)
    (hhold : holdOk t ⟨l, c⟩ (atLabel t k l c s) = true)
    (hop : operationStep t ⟨l, c⟩ (atLabel t k l c s) =
      stepLength t l c.n (fun target => gotoStep t l' { c with target }) (atLabel t k l c s))
    (hrest : runs as (atLabel t k l' { c with target := c.n * s.par.timePerByte } s) = X) :
    runs (.task t :: as) (atLabel t k l c s) = X :=
  runs_goto h h l' _ hhold (hop.trans (stepLength_ok (s := atLabel t k l c s) h1 h32 hT)) fun _ => hrest

/-- P0-P4: the length check, OVFIE saved and cleared, the timer started, CS asserted. -/
theorem pollingSetup {s : State} {t : Nat} {c : Locals} {ps : List Phase} (hrun : running s)
    (hat : atStep t (.txp .p0) c ps s) (h1 : 1 ≤ c.n) (h32 : c.n ≤ 32)
    (hT : c.n * s.par.timePerByte ≤ 2 ^ s.par.timerWidth - 1) :
    runs (List.replicate 5 (.task t)) s = .next (atLabel t (s.taskAt t) (.txp .p5)
      { c with target := c.n * s.par.timePerByte, saved := s.tmr.ovfie, i := 0 }
      (csWritten t true (written t .tmrCtrl 1 (written t .tmrIer 0
        (recorded t .tmrIer 4 .read (BitVec.ofNat 32 s.tmr.ovfie.toNat) s))))) := by
  have hready : Ready t s := ⟨hrun, hat.1⟩
  refine (runs_eq_atLabel hrun hat rfl).trans ?_
  refine runs_stepLength hready (.txp .p1) h1 h32 hT rfl rfl ?_
  have hread := stepRead_atLabel (t := t) (k := s.taskAt t) (l := .txp .p1)
    (c := { c with target := c.n * s.par.timePerByte }) (r := .tmrIer) (n := 4)
    (f := fun v => gotoStep t (.txp .p2) { c with target := c.n * s.par.timePerByte, saved := bitOf v 0 })
    rfl (readReg_tmrIer s)
  rw [bitOf_ofNat_toNat] at hread
  refine runs_goto hready (hready.of_sameOutside (.emit s _)) (.txp .p2) _ rfl hread fun h => ?_
  refine runs_word h (.txp .p3) _ .tmrIer 0 nofun rfl rfl rfl fun h => ?_
  refine runs_word h (.txp .p4) _ .tmrCtrl 1 nofun rfl rfl rfl fun h => ?_
  exact runs_csWrite h (.txp .p5) { c with target := c.n * s.par.timePerByte, saved := s.tmr.ovfie, i := 0 } true
    rfl rfl fun _ => rfl

/-- P9-P12: the count read, CS deasserted, OVFIE restored, the return. -/
theorem pollingFinish {s : State} {t : Nat} {c : Locals} {ps : List Phase} (hrun : running s)
    (hat : atStep t (.txp .p9) c ps s) (hT : c.target ≤ s.tmr.count) :
    runs (List.replicate 4 (.task t)) s = .next (afterReturn t (s.taskAt t) 0x00#8 ps
      (written t .tmrIer (bitWord c.saved 0) (csWritten t false
        (recorded t .tmrCount 4 .read (BitVec.ofNat 32 s.tmr.count) s)))) := by
  obtain ⟨ht, -, rfl⟩ := id hat
  have hwait : decide (c.target ≤ s.tmr.count) = true := decide_eq_true hT
  refine (runs_eq_atLabel hrun hat hwait).trans ?_
  refine runs_read ⟨hrun, ht⟩ 4 (.txp .p10) c (r := .tmrCount) rfl rfl hwait rfl fun h => ?_
  refine runs_csWrite h (.txp .p11) c false rfl rfl fun h => ?_
  refine runs_word h (.txp .p12) c .tmrIer (bitWord c.saved 0) nofun rfl rfl rfl fun h => ?_
  exact runs_return h h.isTask rfl rfl

/-- Settles O43: the two runs, their states written out. -/
theorem pollingSetupAndFinish : Obligations.PollingSetupAndFinish := by
  unfold Obligations.PollingSetupAndFinish
  intro s t c ps hrun
  refine ⟨fun hat h1 h32 hT => ?_, fun hat hT => ?_⟩
  · rw [pollingSetup hrun hat h1 h32 hT]
    simp [atLabel, onTask, csWritten, written, recorded, writeReg, writeTmrCtrl, writeTmrIer, State.setTmr, State.emit,
      csEvents, regOffset, bitOf]
  · rw [pollingFinish hrun hat hT]
    refine congrArg (fun s1 => Host.Outcome.next (afterReturn t (s.taskAt t) 0x00#8 ps s1)) ?_
    simp [csWritten, written, recorded, writeReg, writeTmrIer, State.setTmr, State.emit, csEvents, regOffset,
      bitWord_zero, bitOf_ofNat_toNat]
    rfl

end Sys2Proof.Safety
end

section
/-! PROOF. O44: one byte of TransmitPolling's loop, with the frame of its store (42_spi_transport.md R454, R455; 20_memory.md R205, R206). -/

namespace Sys2Proof.Safety

open Sys2Proof.Machine

theorem stored_memPut {m : Memory} (hw : memWf m = true) (a : Word) (b : Byte) :
    stored (memPut m a.toNat b) m a b := by
  intro k
  split
  next hk =>
    rw [hk]
    exact memGet_memPut_same a.toNat b hw
  next hk => exact memGet_memPut_ne m b hk

/-- Task `t`'s write of `b` to memory at `a`. -/
def memStored (t : Nat) (a : Word) (b : Byte) (s : State) : State :=
  (s.setMem (memPut s.mem a.toNat b)).emit (.memWr (.task t) a b)

/-- A step that takes the received byte from SPI_DR into memory. -/
theorem runs_byteStore {t : Nat} {k : TaskState} {l : Label} {c : Locals} {s : State} {as : List Agent}
    {X : Host.Outcome State Fault Refusal} (h : Ready t s) (l' : Label) (c' : Locals) {a : Word} {b : Byte}
    (hbuf : s.spi.rxbuf = some b) (hadm : admitted s.par a = true)
    (hhold : holdOk t ⟨l, c⟩ (atLabel t k l c s) = true)
    (hop : operationStep t ⟨l, c⟩ (atLabel t k l c s) =
      stepRead t l .spiDr 1 (fun r => stepMemWrite t l a (lowByte r) (gotoStep t l' c')) (atLabel t k l c s))
    (hrest : Ready t (memStored t a b (byteTaken t b s)) →
      runs as (atLabel t k l' c' (memStored t a b (byteTaken t b s))) = X) :
    runs (.task t :: as) (atLabel t k l c s) = X := by
  have hread := stepRead_atLabel (t := t) (k := k) (l := l) (c := c) (r := .spiDr) (n := 1)
    (f := fun r => stepMemWrite t l a (lowByte r) (gotoStep t l' c')) rfl (readSpiDr_received hbuf)
  rw [lowByte_byteWord] at hread
  have hstore := stepMemWrite_ok (t := t) (l := l) (b := b) (k := gotoStep t l' c')
    (s := atLabel t k l c (byteTaken t b s)) hadm
  exact runs_goto (s1 := memStored t a b (byteTaken t b s)) h ⟨h.running, h.isTask⟩ l' c' hhold
    (hop.trans (hread.trans hstore)) hrest

/-- Settles O44, step by step: the byte fetched, exchanged and stored. -/
theorem pollingByte : Obligations.PollingByte := by
  unfold Obligations.PollingByte
  intro s t c ps hrun hmem hat hclean a r ha hr b m p
  obtain ⟨htxe, hb, hrx⟩ := spiClean_iff.mp hclean
  refine ⟨memPut s.mem r.toNat m, stored_memPut hmem.1 r m, ?_⟩
  refine (runs_eq_atLabel hrun hat htxe).trans ?_
  refine runs_statusRead ⟨hrun, hat.1⟩ (.txp .p6) c htxe rfl fun h => ?_
  refine runs_fetch h (.txp .p7) c (a := a) ha htxe rfl rfl fun h => ?_
  refine runs_byteShift h s rfl rfl hb hrx fun h => ?_
  refine runs_statusRead h (.txp .p8) c rfl rfl fun h => ?_
  refine runs_byteStore h (.txp (if c.i + 1 < c.n then .p5 else .p9)) { c with i := c.i + 1 } (a := r) rfl hr rfl rfl
    fun _ => (runs_nil _).trans ?_
  simp [atLabel, onTask, memStored, byteTaken, statusRead, byteShifted, byteLoaded, memFetched, recorded, State.emit,
    State.setSpi, State.setMem, htxe, hb, p, m, b, regOffset, byteWord]

end Sys2Proof.Safety
end

section
/-! PROOF. O46: TransmitDMA up to its wait, D0-D16: what a write of a channel's registers does, then the steps in three parts (42_spi_transport.md R457, R458; 43_dma_engine.md R482, R491). -/

namespace Sys2Proof.Safety

open Sys2Proof.Machine

/-! ### A channel's registers -/

/-- `r` is one of channel `n`'s registers that its task writes before it starts. -/
def isTransferReg (n : Chan) (r : Reg) : Prop := r = .dmaSrc n ∨ r = .dmaDst n ∨ r = .dmaCnt n

/-- A step that writes a transfer register of a stopped channel. -/
theorem runs_transferWord {t : Nat} {k : TaskState} {l : Label} {c : Locals} {s : State} {as : List Agent}
    {X : Host.Outcome State Fault Refusal} (h : Ready t s) (l' : Label) (c' : Locals) (n : Chan) (r : Reg) (v : Word)
    (hr : isTransferReg n r) (hoff : (s.dma n).en = false) (hhold : holdOk t ⟨l, c⟩ (atLabel t k l c s) = true)
    (hop : operationStep t ⟨l, c⟩ (atLabel t k l c s) = stepWrite t l r 4 v (gotoStep t l' c') (atLabel t k l c s))
    (hrest : Ready t (written t r v s) → runs as (atLabel t k l' c' (written t r v s)) = X) :
    runs (.task t :: as) (atLabel t k l c s) = X := by
  have hok : r ≠ .spiDr ∧ regWriteOk r 4 v s = true := by
    rcases hr with rfl | rfl | rfl <;> exact ⟨nofun, by rw [regWriteOk, regDmaBusy, hoff]; rfl⟩
  exact runs_word h l' c' r v hok.1 hok.2 hhold hop hrest

/-- `v` may be written to DMA_CTRL: the channel is stopped or keeps its configuration. -/
def configOk (v : Word) (d : DmaChan) : Prop :=
  d.en = false ∨ (d.sinc, d.dinc, d.ie) = (bitOf v 1, bitOf v 2, bitOf v 3)

theorem regWriteOk_dmaCtrl {n : Chan} {v : Word} {s : State} (h : configOk v (s.dma n)) :
    regWriteOk (.dmaCtrl n) 4 v s = true := by
  have hbusy : regDmaBusy (.dmaCtrl n) v s = false := by
    rcases h with hoff | hsame
    · rw [regDmaBusy, hoff, Bool.false_and]
    · simp only [Prod.mk.injEq] at hsame
      obtain ⟨hs, hd, hi⟩ := hsame
      simp [regDmaBusy, dmaCtrlChanges, hs, hd, hi]
  rw [regWriteOk, hbusy]
  rfl

/-- Channel `d` after a write of `v` to DMA_CTRL: configured, and running where `v` has EN and the count is not 0;
with EN and a count of 0 it is done at once. -/
def controlled (v : Word) (d : DmaChan) : DmaChan :=
  { d with
    sinc := bitOf v 1, dinc := bitOf v 2, ie := bitOf v 3
    en := bitOf v 0 && d.cnt != 0
    done := d.done || (bitOf v 0 && d.cnt == 0) }

/-- `v` written to DMA_CTRL raises no request: it has no EN, or EN for a stopped channel that moves a byte or has no
IE. -/
def noRequest (v : Word) (d : DmaChan) : Prop :=
  bitOf v 0 = true → d.en = false ∧ (d.cnt = 0 → bitOf v 3 = false)

/-- Completion without IE raises no request. -/
theorem dmaComplete_setDma {n : Chan} {d : DmaChan} (hie : d.ie = false) (s : State) :
    dmaComplete n (s.setDma n d) = s.setDma n { d with done := true, en := false } := by
  cases n <;> simp [dmaComplete, State.setDmairq, State.setDma, State.dma, hie]

/-- A write of DMA_CTRL stops or starts the channel (43_dma_engine.md R482). -/
theorem writeDmaCtrl_eq {n : Chan} {v : Word} {s : State} (h : configOk v (s.dma n)) (hreq : noRequest v (s.dma n)) :
    writeDmaCtrl n v s = s.setDma n (controlled v (s.dma n)) := by
  cases hen : (s.dma n).en with
  | true =>
    have hv : bitOf v 0 = false := by
      rw [← Bool.not_eq_true]
      intro hv
      exact Bool.false_ne_true ((hreq hv).1.symm.trans hen)
    simp only [configOk, hen, Bool.true_eq_false, false_or, Prod.mk.injEq] at h
    obtain ⟨hs, hd, hi⟩ := h
    simp [writeDmaCtrl, dmaConfigure, controlled, hen, hv, ← hs, ← hd, ← hi]
  | false =>
    cases hv : bitOf v 0 with
    | false => simp [writeDmaCtrl, dmaConfigure, controlled, hen, hv]
    | true =>
      by_cases hcnt : (s.dma n).cnt = 0
      · have hie := (hreq hv).2 hcnt
        have hcnt' : (s.dma n).cnt = 0#16 := hcnt
        simp [writeDmaCtrl, dmaConfigure, controlled, hen, hv, hcnt', dmaComplete_setDma, hie]
      · have hcnt' : (s.dma n).cnt ≠ 0#16 := hcnt
        have hbeq : ((s.dma n).cnt == 0#16) = false := beq_eq_false_iff_ne.mpr hcnt'
        simp [writeDmaCtrl, dmaConfigure, controlled, hen, hv, hcnt', bne, hbeq]

/-- `s` with task `t`'s write of `v` to DMA_CTRL of channel `n` done. -/
def channelWritten (t : Nat) (n : Chan) (v : Word) (s : State) : State :=
  (recorded t (.dmaCtrl n) 4 .write v s).setDma n (controlled v (s.dma n))

/-- A step that writes DMA_CTRL. -/
theorem runs_channel {t : Nat} {k : TaskState} {l : Label} {c : Locals} {s : State} {as : List Agent}
    {X : Host.Outcome State Fault Refusal} (h : Ready t s) (l' : Label) (c' : Locals) (n : Chan) (v : Word)
    (hcfg : configOk v (s.dma n)) (hreq : noRequest v (s.dma n))
    (hhold : holdOk t ⟨l, c⟩ (atLabel t k l c s) = true)
    (hop : operationStep t ⟨l, c⟩ (atLabel t k l c s) =
      stepWrite t l (.dmaCtrl n) 4 v (gotoStep t l' c') (atLabel t k l c s))
    (hrest : Ready t (channelWritten t n v s) → runs as (atLabel t k l' c' (channelWritten t n v s)) = X) :
    runs (.task t :: as) (atLabel t k l c s) = X := by
  have hdma : (recorded t (.dmaCtrl n) 4 .write v s).dma n = s.dma n := emit_dma s _ n
  have hw := writeDmaCtrl_eq (hdma.symm ▸ hcfg) (hdma.symm ▸ hreq)
  rw [hdma] at hw
  exact runs_write (r := .dmaCtrl n) (s1 := channelWritten t n v s) h 4 l' c' (congrArg some hw)
    (regWriteOk_dmaCtrl hcfg) hhold hop hrest

/-- DMA_CNT keeps bits 15:0 (43_dma_engine.md R480). -/
theorem cnt_ofNat (n : Nat) : (BitVec.ofNat 32 n).extractLsb' 0 16 = BitVec.ofNat 16 n := by
  apply BitVec.eq_of_toNat_eq
  simp

theorem cnt_eq_zero_iff {n : Nat} (h : n ≤ 32) : BitVec.ofNat 16 n = 0#16 ↔ n = 0 := by
  rw [← BitVec.toNat_inj]
  simp
  omega

/-- A target within the counter is loaded as its low 32 bits (2 ^ 32 as `simp` writes it). -/
theorem target_mod_counter {W T : Nat} (hT : T ≤ 2 ^ W - 1) : T % 4294967296 % 2 ^ W = T % 4294967296 := by
  have hpos : 0 < 2 ^ W := Nat.two_pow_pos W
  have hle := Nat.mod_le T 4294967296
  exact Nat.mod_eq_of_lt (by omega)

/-! ### Steps D0-D16 -/

/-- Steps D2-D6 of task `t` done: the load value is the target and channel 0 is to move tx + 1 … to SPI_DR. -/
def sendProgrammed (t : Nat) (c : Locals) (s : State) : State :=
  { s with
    tmr := { s.tmr with load := (BitVec.ofNat 32 c.target).toNat % 2 ^ s.par.timerWidth }
    dma0 := { s.dma0 with
      src := c.tx + 1, dst := s.par.blockBase, cnt := BitVec.ofNat 16 (c.n - 1)
      sinc := true, dinc := false, ie := false, en := false }
    hist := s.hist ++
      [.regAcc (.task t) 0x44#8 4 .write (BitVec.ofNat 32 c.target),
       .regAcc (.task t) 0x80#8 4 .write (c.tx + 1), .regAcc (.task t) 0x84#8 4 .write s.par.blockBase,
       .regAcc (.task t) 0x88#8 4 .write (BitVec.ofNat 32 (c.n - 1)),
       .regAcc (.task t) 0x8C#8 4 .write 0x2] }

/-- Steps D7-D10 of task `t` done: channel 1 moves SPI_DR to rx …, and runs. -/
def receiveArmed (t : Nat) (c : Locals) (s : State) : State :=
  { s with
    dma1 := { s.dma1 with
      src := s.par.blockBase, dst := c.rx, cnt := BitVec.ofNat 16 c.n
      sinc := false, dinc := true, ie := true, en := true }
    hist := s.hist ++
      [.regAcc (.task t) 0xA0#8 4 .write s.par.blockBase, .regAcc (.task t) 0xA4#8 4 .write c.rx,
       .regAcc (.task t) 0xA8#8 4 .write (BitVec.ofNat 32 c.n), .regAcc (.task t) 0xAC#8 4 .write 0xD] }

/-- Steps D11-D16 of task `t` done: CS asserted, the timer started, the first byte of tx sent by hand, both requests
enabled, channel 0 started. -/
def transferStarted (t : Nat) (c : Locals) (s : State) : State :=
  { s with
    cs := ⟨true⟩
    tmr := { s.tmr with count := 0, running := true }
    spi := { s.spi with txbuf := memGet s.mem c.tx.toNat, txe := false, txdmaen := true, rxdmaen := true }
    dma0 := controlled 3 s.dma0
    hist := s.hist ++ [.regAcc (.task t) 0x10#8 4 .write 1] ++ csEvents true s ++
      [.regAcc (.task t) 0x40#8 4 .write 0x5, .regAcc (.task t) 0x04#8 4 .read (statusWord s.spi),
       .memRd (.task t) c.tx (memGet s.mem c.tx.toNat),
       .regAcc (.task t) 0x00#8 1 .write (byteWord (memGet s.mem c.tx.toNat)),
       .regAcc (.task t) 0x08#8 4 .write 0x3, .regAcc (.task t) 0x8C#8 4 .write 0x3] }

/-- D16 starts channel 0 for n - 1 bytes; with none to move it is done at once. -/
theorem controlled_start {n : Nat} (h1 : 1 ≤ n) (h32 : n ≤ 32) {d : DmaChan}
    (hcnt : d.cnt = BitVec.ofNat 16 (n - 1)) :
    controlled 3#32 d = { d with
      sinc := true, dinc := false, ie := false, en := !decide (n = 1), done := decide (n = 1) || d.done } := by
  have hlast : BitVec.ofNat 16 (n - 1) = 0#16 ↔ n = 1 := by
    rw [cnt_eq_zero_iff (by omega)]
    omega
  by_cases hn : n = 1
  · simp [controlled, bitOf, hcnt, hn]
  · have hne : BitVec.ofNat 16 (n - 1) ≠ 0#16 := fun hz => hn (hlast.mp hz)
    simp [controlled, bitOf, hcnt, hn, hne]

section SetupSteps

variable {t : Nat} {k : TaskState} {c : Locals} {s : State} {as : List Agent}
  {X : Host.Outcome State Fault Refusal} (h : Ready t s)
include h

theorem runs_sendProgrammed (hoff : s.dma0.en = false)
    (hrest : runs as (atLabel t k (.txd .d7) c (sendProgrammed t c s)) = X) :
    runs (.task t :: .task t :: .task t :: .task t :: .task t :: as) (atLabel t k (.txd .d2) c s) = X := by
  refine runs_word h (.txd .d3) c .tmrLoad (BitVec.ofNat 32 c.target) nofun rfl rfl rfl fun h => ?_
  refine runs_transferWord h (.txd .d4) c .ch0 (.dmaSrc .ch0) (c.tx + 1) (.inl rfl) hoff rfl rfl fun h => ?_
  refine runs_transferWord h (.txd .d5) c .ch0 (.dmaDst .ch0) s.par.blockBase (.inr (.inl rfl)) hoff rfl rfl
    fun h => ?_
  refine runs_transferWord h (.txd .d6) c .ch0 (.dmaCnt .ch0) (BitVec.ofNat 32 (c.n - 1)) (.inr (.inr rfl)) hoff rfl
    rfl fun h => ?_
  refine runs_channel h (.txd .d7) c .ch0 0x2 (.inl hoff) nofun rfl rfl fun _ => Eq.trans ?_ hrest
  refine congrArg (fun s1 => runs as (atLabel t k (.txd .d7) c s1)) ?_
  simp [sendProgrammed, channelWritten, controlled, written, recorded, writeReg, writeTmrLoad, writeDmaSrc, writeDmaDst,
    writeDmaCnt, State.setTmr, State.emit, State.setDma, State.dma, cnt_ofNat, regOffset, chanBase, bitOf]

theorem runs_receiveArmed (hoff : s.dma1.en = false) (hcnt : BitVec.ofNat 16 c.n ≠ 0#16)
    (hrest : runs as (atLabel t k (.txd .d11) c (receiveArmed t c s)) = X) :
    runs (.task t :: .task t :: .task t :: .task t :: as) (atLabel t k (.txd .d7) c s) = X := by
  rw [← cnt_ofNat] at hcnt
  refine runs_transferWord h (.txd .d8) c .ch1 (.dmaSrc .ch1) s.par.blockBase (.inl rfl) hoff rfl rfl fun h => ?_
  refine runs_transferWord h (.txd .d9) c .ch1 (.dmaDst .ch1) c.rx (.inr (.inl rfl)) hoff rfl rfl fun h => ?_
  refine runs_transferWord h (.txd .d10) c .ch1 (.dmaCnt .ch1) (BitVec.ofNat 32 c.n) (.inr (.inr rfl)) hoff rfl rfl
    fun h => ?_
  refine runs_channel h (.txd .d11) c .ch1 0xD (.inl hoff) (fun _ => ⟨hoff, fun hz => absurd hz hcnt⟩) rfl rfl
    fun _ => Eq.trans ?_ hrest
  refine congrArg (fun s1 => runs as (atLabel t k (.txd .d11) c s1)) ?_
  rw [cnt_ofNat] at hcnt
  simp [receiveArmed, channelWritten, controlled, written, recorded, writeReg, writeDmaSrc, writeDmaDst,
    writeDmaCnt, State.emit, State.setDma, State.dma, cnt_ofNat, regOffset, chanBase, bitOf, hcnt]

theorem runs_transferStarted (hoff : s.dma0.en = false) (htxe : s.spi.txe = true)
    (ha : admitted s.par c.tx = true)
    (hrest : runs as (atLabel t k (.txd .d17) c (transferStarted t c s)) = X) :
    runs (.task t :: .task t :: .task t :: .task t :: .task t :: .task t :: as) (atLabel t k (.txd .d11) c s) = X := by
  refine runs_csWrite h (.txd .d12) c true rfl rfl fun h => ?_
  refine runs_word h (.txd .d13) c .tmrCtrl 5 nofun rfl rfl rfl fun h => ?_
  refine runs_statusRead h (.txd .d14) c rfl rfl fun h => ?_
  refine runs_fetch h (.txd .d15) c (a := c.tx) ha htxe rfl rfl fun h => ?_
  refine runs_word h (.txd .d16) c .spiCr 3 nofun rfl rfl rfl fun h => ?_
  refine runs_channel h (.txd .d17) c .ch0 3 (.inl hoff) (fun _ => ⟨hoff, fun _ => rfl⟩) rfl rfl fun _ =>
    Eq.trans ?_ hrest
  refine congrArg (fun s1 => runs as (atLabel t k (.txd .d17) c s1)) ?_
  simp [transferStarted, channelWritten, byteLoaded, memFetched, statusRead, written, csWritten, recorded, writeReg,
    writeTmrCtrl, writeSpiCr, State.setTmr, State.setSpi, State.emit, State.setDma, State.dma, regOffset, chanBase,
    bitOf]

end SetupSteps

/-- Settles O46: D0 and D1 by their checks, the rest in three parts. -/
theorem dmaTransactionSetup : Obligations.DmaTransactionSetup := by
  unfold Obligations.DmaTransactionSetup
  intro s t c ps hrun hat T base b h1 h32 hT howner hclean h0 h1' ha
  obtain ⟨htxe, -, -⟩ := spiClean_iff.mp hclean
  have hready : Ready t s := ⟨hrun, hat.1⟩
  refine (runs_eq_atLabel hrun hat rfl).trans ?_
  refine runs_stepLength hready (.txd .d1) h1 h32 hT rfl rfl ?_
  refine runs_goto (s1 := { s with owner := some t }) hready ⟨hrun, hat.1⟩ (.txd .d2) { c with target := T } rfl
    (tokenTaken howner) fun h => ?_
  have hcnt : BitVec.ofNat 16 c.n ≠ 0#16 := fun hz => by
    have := (cnt_eq_zero_iff h32).mp hz
    omega
  refine runs_sendProgrammed h h0 ?_
  refine runs_receiveArmed ⟨h.running, h.isTask⟩ h1' hcnt ?_
  refine runs_transferStarted ⟨h.running, h.isTask⟩ rfl htxe ha ((runs_nil _).trans ?_)
  simp [atLabel, onTask, transferStarted, receiveArmed, sendProgrammed, controlled_start h1 h32,
    target_mod_counter hT, csEvents, byteWord, b, T, base]

end Sys2Proof.Safety
end

section
/-! PROOF. O47: TransmitDMA from its notification on, D17-D23 (42_spi_transport.md R457, R460; 43_dma_engine.md R502). -/

namespace Sys2Proof.Safety

open Sys2Proof.Machine

theorem taskAt_atLabel {t : Nat} {k : TaskState} {l : Label} {c : Locals} {s : State} (ht : t < s.tasks.length) :
    (atLabel t k l c s).taskAt t = { k with ctx := { k.ctx with cur := some ⟨l, c⟩ } } :=
  taskAt_onTask ht ..

theorem setNotify_atLabel {t : Nat} {k : TaskState} {l : Label} {c : Locals} {s : State} (ht : t < s.tasks.length)
    (v : Nat) : (atLabel t k l c s).setNotify t v = atLabel t { k with notify := v } l c s := by
  rw [State.setNotify, taskAt_atLabel ht]
  simp [State.setTask, atLabel, onTask]

/-- An error raised under report by a task at a label ends its operation. -/
theorem raise_atLabel_report {t : Nat} {k : TaskState} {l : Label} {c : Locals} {s : State} (ht : t < s.tasks.length)
    {e : Abnormal} (he : isFault e = false) (hp : s.par.errorPolicy = .report) :
    raise t (some (.step l)) e (atLabel t k l c s) =
      onTask t { k with ctx := Ctx.idle, result := some (abnormalCode e, 0x00#8) }
        { s with active := none, hist := s.hist ++ [.result t (abnormalCode e) 0x00#8] } := by
  simp [raise, he, hp, complete, atLabel, onTask, State.setResult, State.setCtx, State.setActive, State.setTask,
    State.emit, State.taskAt, ht]

/-- Under fatal it halts there. -/
theorem raise_atLabel_fatal {t : Nat} {k : TaskState} {l : Label} {c : Locals} {s : State} {e : Abnormal}
    (hp : s.par.errorPolicy = .fatal) :
    raise t (some (.step l)) e (atLabel t k l c s) =
      atLabel t k l c { s with halted := some e, hist := s.hist ++ [.halt e t (some (.step l))] } := by
  simp [raise, hp, haltWith, atLabel, onTask, State.setHalted, State.emit]

/-! ### Steps D17-D22 -/

/-- Steps D17-D22 of task `t` done: both requests disabled, channel 0 stopped, the channels' flags and CS cleared. -/
def transferEnded (t : Nat) (s : State) : State :=
  { s with
    spi := { s.spi with txdmaen := false, rxdmaen := false }
    dma0 := { s.dma0 with en := false, sinc := true, dinc := false, ie := false, done := false, err := false }
    dma1 := { s.dma1 with done := false, err := false }
    cs := ⟨false⟩
    hist := s.hist ++
      ([.regAcc (.task t) 0x08#8 4 .write 0, .regAcc (.task t) 0x8C#8 4 .write 0x2,
        .regAcc (.task t) 0x90#8 4 .write 0x3, .regAcc (.task t) 0xB0#8 4 .write 0x3,
        .regAcc (.task t) 0x14#8 4 .write 1] ++ csEvents false s) }

theorem runs_transferEnded {t : Nat} {k : TaskState} {c : Locals} {s : State} {as : List Agent}
    {X : Host.Outcome State Fault Refusal} (h : Ready t s) (hv : 0 < k.notify) (hcfg : configOk 0x2 s.dma0)
    (hrest : Ready t (transferEnded t s) →
      runs as (atLabel t { k with notify := 0 } (.txd .d23) { c with value := k.notify } (transferEnded t s)) = X) :
    runs (.task t :: .task t :: .task t :: .task t :: .task t :: .task t :: as) (atLabel t k (.txd .d17) c s) = X := by
  have hnotify : ((atLabel t k (.txd .d17) c s).taskAt t).notify = k.notify := by rw [taskAt_atLabel h.isTask]
  have hwait : holdOk t ⟨.txd .d17, c⟩ (atLabel t k (.txd .d17) c s) = true :=
    decide_eq_true (hnotify.symm ▸ hv)
  have htake : operationStep t ⟨.txd .d17, c⟩ (atLabel t k (.txd .d17) c s) =
      gotoStep t (.txd .d18) { c with value := k.notify } (atLabel t { k with notify := 0 } (.txd .d17) c s) := by
    have hop : operationStep t ⟨.txd .d17, c⟩ (atLabel t k (.txd .d17) c s) =
        gotoStep t (.txd .d18) { c with value := ((atLabel t k (.txd .d17) c s).taskAt t).notify }
          ((atLabel t k (.txd .d17) c s).setNotify t 0) := rfl
    rw [hop, hnotify, setNotify_atLabel h.isTask]
  refine runs_goto h h (.txd .d18) { c with value := k.notify } hwait htake fun h => ?_
  refine runs_word h (.txd .d19) _ .spiCr 0 nofun rfl rfl rfl fun h => ?_
  refine runs_channel h (.txd .d20) _ .ch0 0x2 hcfg nofun rfl rfl fun h => ?_
  refine runs_word h (.txd .d21) _ (.dmaFlags .ch0) 3 nofun rfl rfl rfl fun h => ?_
  refine runs_word h (.txd .d22) _ (.dmaFlags .ch1) 3 nofun rfl rfl rfl fun h => ?_
  refine runs_csWrite h (.txd .d23) _ false rfl rfl fun _ =>
    Eq.trans ?_ (hrest ⟨h.running, h.isTask⟩)
  refine congrArg (fun s1 =>
    runs as (atLabel t { k with notify := 0 } (.txd .d23) { c with value := k.notify } s1)) ?_
  simp [transferEnded, channelWritten, controlled, written, csWritten, recorded, writeReg, writeSpiCr, writeDmaFlags,
    State.setSpi, State.emit, State.setDma, State.dma, csEvents, regOffset, chanBase, bitOf, w1c]

/-! ### Step D23 -/

/-- Step D23 returns after one notification. -/
theorem notifiedOnce {t : Nat} {c : Locals} (hv : c.value = 1) (s : State) :
    operationStep t ⟨.txd .d23, c⟩ s = returnOp t codeOk 0x00#8 s :=
  if_neg fun hne => hne hv

/-- Step D23 raises after another number of them. -/
theorem notifiedOther {t : Nat} {c : Locals} (hv : c.value ≠ 1) (s : State) :
    operationStep t ⟨.txd .d23, c⟩ s = raise t (some (.step (.txd .d23))) (.notificationMismatch c.value) s :=
  if_pos hv

/-- Settles O47: D17-D22 whatever the count, then D23 by the count and the policy. -/
theorem dmaTransactionFinish : Obligations.DmaTransactionFinish := by
  unfold Obligations.DmaTransactionFinish
  intro s t c ps hrun hat v hv hcfg evs k s1
  obtain ⟨ht, -, rfl⟩ := id hat
  have hready : Ready t s := ⟨hrun, ht⟩
  have hfinal {X : Host.Outcome State Fault Refusal}
      (hrest : Ready t (transferEnded t s) →
        runs [.task t] (atLabel t k (.txd .d23) { c with value := v } (transferEnded t s)) = X) :
      runs (List.replicate 7 (.task t)) s = X :=
    (runs_eq_atLabel hrun hat (decide_eq_true hv)).trans (runs_transferEnded hready hv hcfg hrest)
  refine ⟨fun h1 => hfinal fun h => ?_, fun h1 hp => hfinal fun h => ?_, fun h1 hp => hfinal fun h => ?_⟩
  · exact runs_return h h.isTask rfl (notifiedOnce h1 _)
  · rw [runs_atLabel h rfl, runs_nil, notifiedOther h1, raise_atLabel_report h.isTask rfl hp]
    rfl
  · rw [runs_atLabel h rfl, runs_nil, notifiedOther h1, raise_atLabel_fatal (s := transferEnded t s) hp]
    rfl

end Sys2Proof.Safety
end

section
/-! PROOF. O49: TransmitDMA's abort under the report policy, T0-T10, in three parts and the raise (42_spi_transport.md R459). -/

namespace Sys2Proof.Safety

open Sys2Proof.Machine

/-- Step T3 of task `t` done: the DMA-complete request and the token dropped. -/
def tokenFreed (t : Nat) (s : State) : State := { written t .dmaIrq 1 s with owner := none }

/-- Steps T0-T3 of task `t` done: requests disabled, both channels stopped, the DMA-complete request and the token
dropped. -/
def abortStopped (t : Nat) (s : State) : State :=
  { s with
    spi := { s.spi with txdmaen := false, rxdmaen := false }
    dma0 := { s.dma0 with en := false, sinc := true, dinc := false, ie := false }
    dma1 := { s.dma1 with en := false, sinc := false, dinc := true, ie := true }
    dmairq := false
    owner := none
    hist := s.hist ++
      [.regAcc (.task t) 0x08#8 4 .write 0, .regAcc (.task t) 0x8C#8 4 .write 0x2,
       .regAcc (.task t) 0xAC#8 4 .write 0xC, .regAcc (.task t) 0xC0#8 4 .write 0x1] }

/-- Step T5 of task `t` done: a received byte read. -/
def staleTaken (t : Nat) (s : State) : State :=
  { s with
    spi := { s.spi with rxne := false }
    hist := s.hist ++
      if s.spi.rxne = true then [.regAcc (.task t) 0x00#8 1 .read (byteWord (s.spi.rxbuf.getD 0))] else [] }

/-- Steps T4-T6 of task `t` done: a stale byte read, RXNE and OVR clear. -/
def abortDrained (t : Nat) (s : State) : State :=
  { s with
    spi := { s.spi with rxne := false, ovr := false }
    hist := s.hist ++ [.regAcc (.task t) 0x04#8 4 .read (statusWord s.spi)] ++
      (if s.spi.rxne = true then [.regAcc (.task t) 0x00#8 1 .read (byteWord (s.spi.rxbuf.getD 0))] else []) ++
      [.regAcc (.task t) 0x04#8 4 .write 0x8] }

/-- Steps T7-T9 of task `t` done: the channels' flags and CS cleared. -/
def abortCleared (t : Nat) (s : State) : State :=
  { s with
    dma0 := { s.dma0 with done := false, err := false }
    dma1 := { s.dma1 with done := false, err := false }
    cs := ⟨false⟩
    hist := s.hist ++
      [.regAcc (.task t) 0x90#8 4 .write 0x3, .regAcc (.task t) 0xB0#8 4 .write 0x3,
       .regAcc (.task t) 0x14#8 4 .write 1] ++ csEvents false s }

section AbortSteps

variable {t : Nat} {k : TaskState} {c : Locals} {s : State} {as : List Agent}
  {X : Host.Outcome State Fault Refusal} (h : Ready t s)
include h

theorem runs_tokenFreed (hrest : Ready t (tokenFreed t s) →
      runs as (atLabel t { k with notify := 0 } (.txd .t4) c (tokenFreed t s)) = X) :
    runs (.task t :: as) (atLabel t k (.txd .t3) c s) = X := by
  have hwrite : operationStep t ⟨.txd .t3, c⟩ (atLabel t k (.txd .t3) c s) =
      gotoStep t (.txd .t4) c ((atLabel t k (.txd .t3) c (tokenFreed t s)).setNotify t 0) :=
    stepWrite_atLabel (r := .dmaIrq) (n := 4) (v := 1)
      (f := fun s => gotoStep t (.txd .t4) c ((s.setOwner none).setNotify t 0)) rfl rfl
  have hready : Ready t (tokenFreed t s) := ⟨h.running, h.isTask⟩
  rw [setNotify_atLabel hready.isTask] at hwrite
  exact runs_goto h hready (.txd .t4) c rfl hwrite hrest

theorem runs_abortStopped (h0 : configOk 0x2 s.dma0) (h1 : configOk 0xC s.dma1)
    (hrest : Ready t (abortStopped t s) →
      runs as (atLabel t { k with notify := 0 } (.txd .t4) c (abortStopped t s)) = X) :
    runs (.task t :: .task t :: .task t :: .task t :: as) (atLabel t k (.txd .t0) c s) = X := by
  refine runs_word h (.txd .t1) c .spiCr 0 nofun rfl rfl rfl fun h => ?_
  refine runs_channel h (.txd .t2) c .ch0 0x2 h0 nofun rfl rfl fun h => ?_
  refine runs_channel h (.txd .t3) c .ch1 0xC h1 nofun rfl rfl fun h => ?_
  refine runs_tokenFreed h fun _ => Eq.trans ?_ (hrest ⟨h.running, h.isTask⟩)
  refine congrArg (fun s1 => runs as (atLabel t { k with notify := 0 } (.txd .t4) c s1)) ?_
  simp [abortStopped, tokenFreed, channelWritten, controlled, written, recorded, writeReg, writeSpiCr, writeDmaIrq,
    State.setSpi, State.setDmairq, State.emit, State.setDma, State.dma, regOffset, chanBase, bitOf, w1c]

theorem runs_staleTaken (hrx : rxInv s)
    (hrest : Ready t (staleTaken t s) → runs as (atLabel t k (.txd .t6) c (staleTaken t s)) = X) :
    runs (.task t :: as) (atLabel t k (.txd .t5) c s) = X := by
  cases hne : s.spi.rxne with
  | true =>
    obtain ⟨b, hbuf⟩ := Option.isSome_iff_exists.mp (hrx hne)
    have hstale : staleTaken t s = byteTaken t b s := by
      simp [staleTaken, byteTaken, recorded, State.setSpi, State.emit, regOffset, hne, hbuf]
    rw [hstale] at hrest
    exact runs_byteTake h (.txd .t6) c hbuf rfl (if_pos hne) hrest
  | false =>
    have hnone : ¬ (atLabel t k (.txd .t5) c s).spi.rxne = true := ne_true_of_eq_false hne
    have hspi : { s.spi with rxne := false } = s.spi := by rw [← hne]
    have hstale : staleTaken t s = s := by
      rw [staleTaken, hspi, if_neg (ne_true_of_eq_false hne), List.append_nil]
    rw [hstale] at hrest
    exact runs_goto h h (.txd .t6) c rfl (if_neg hnone) hrest

theorem runs_abortDrained (hrx : rxInv s) (htxe : s.spi.txe = true) (hb : s.spi.bsy = false)
    (hrest : Ready t (abortDrained t s) → runs as (atLabel t k (.txd .t7) c (abortDrained t s)) = X) :
    runs (.task t :: .task t :: .task t :: as) (atLabel t k (.txd .t4) c s) = X := by
  have hidle : (s.spi.txe && !s.spi.bsy) = true := by rw [htxe, hb]; rfl
  refine runs_statusRead h (.txd .t5) c hidle rfl fun h => ?_
  refine runs_staleTaken h hrx fun h => ?_
  refine runs_word h (.txd .t7) c .spiSr 8 nofun rfl rfl rfl fun _ => Eq.trans ?_ (hrest ⟨h.running, h.isTask⟩)
  refine congrArg (fun s1 => runs as (atLabel t k (.txd .t7) c s1)) ?_
  simp [abortDrained, staleTaken, statusRead, written, recorded, writeReg, writeSpiSr, State.setSpi, State.emit,
    regOffset, bitOf, w1c]
  rfl

theorem runs_abortCleared (hrest : Ready t (abortCleared t s) →
      runs as (atLabel t k (.txd .t10) c (abortCleared t s)) = X) :
    runs (.task t :: .task t :: .task t :: as) (atLabel t k (.txd .t7) c s) = X := by
  refine runs_word h (.txd .t8) c (.dmaFlags .ch0) 3 nofun rfl rfl rfl fun h => ?_
  refine runs_word h (.txd .t9) c (.dmaFlags .ch1) 3 nofun rfl rfl rfl fun h => ?_
  refine runs_csWrite h (.txd .t10) c false rfl rfl fun _ => Eq.trans ?_ (hrest ⟨h.running, h.isTask⟩)
  refine congrArg (fun s1 => runs as (atLabel t k (.txd .t10) c s1)) ?_
  simp [abortCleared, written, csWritten, recorded, writeReg, writeDmaFlags,
    State.emit, State.setDma, State.dma, csEvents, regOffset, chanBase, bitOf, w1c]

end AbortSteps

/-- Settles O49: the three parts, then T10's raise under report. -/
theorem dmaTransactionAbort : Obligations.DmaTransactionAbort := by
  unfold Obligations.DmaTransactionAbort
  intro s t c ps hrun hrx hat hp htxe hb h0 h1 p r
  have hready : Ready t s := ⟨hrun, hat.1⟩
  refine ⟨_, (runs_eq_atLabel hrun hat rfl).trans <| runs_abortStopped hready h0 h1 fun h =>
    runs_abortDrained h hrx htxe hb fun h => runs_abortCleared h fun h => (runs_atLabel h rfl).trans ?_, ?_, rfl⟩
  · refine congrArg Host.Outcome.next ((raise_atLabel_report (e := .transferTimedOut t) h.isTask rfl hp).trans ?_)
    simp [abortCleared, abortDrained, abortStopped, csEvents, byteWord, onTask, abnormalCode, r, p]
    rfl
  · exact spiClean_iff.mpr ⟨htxe, hb, rfl⟩

end Sys2Proof.Safety
end

section
/-! PROOF. O25, O26, O27: the registers of the DMA channels, each said once for both channels. The source, the destination and the count are written while the channel is stopped; DMA_CTRL configures, starts, completes or stops it; the flags and the request are cleared by writing 1 (43_dma_engine.md R480-R483, R489). -/

namespace Sys2Proof.Safety

open Sys2Proof.Machine

/-! ### DMA_SRC, DMA_DST and DMA_CNT -/

/-- A transfer register is written exactly while its channel is stopped (R480; 20_memory.md R212 check 4). -/
theorem regWriteOk_transferReg {c : Chan} {r : Reg} (hr : isTransferReg c r) (v : Word) (s : State) :
    regWriteOk r 4 v s = !(s.dma c).en := by
  rcases hr with rfl | rfl | rfl <;> rfl

theorem directWrite_stopped {c : Chan} {r : Reg} {v : Word} {s s' : State} (h : mayAccess s)
    (hr : isTransferReg c r) (hoff : (s.dma c).en = false)
    (hw : writeReg r v (afterWrite (regOffset r) 4 v s) = some s') : directWrite r 4 v s = .next s' :=
  directWrite_word h (by rw [regWriteOk_transferReg hr, hoff]; rfl) hw

theorem directWrite_running {c : Chan} {r : Reg} {v : Word} {s : State} (h : mayAccess s)
    (hr : isTransferReg c r) (hon : (s.dma c).en = true) :
    directWrite r 4 v s = .next (afterHalt (.badRegisterAccess (regOffset r)) s) :=
  directWrite_refused h.1 h.2 (by rw [regWriteOk_transferReg hr, hon]; rfl)

/-- The accesses of the three transfer registers of channel `c`. -/
theorem transferReg_accesses (c : Chan) (n : Nat) (v : Word) {s : State} (h : mayAccess s) :
    let d := s.dma c
    let src := regOffset (.dmaSrc c)
    let dst := regOffset (.dmaDst c)
    let cnt := regOffset (.dmaCnt c)
    let refused (off : Byte) : Host.Outcome State Fault Refusal := .next (afterHalt (.badRegisterAccess off) s)
    directRead (.dmaSrc c) 4 s = .next (afterRead src 4 d.src s) ∧
    directRead (.dmaDst c) 4 s = .next (afterRead dst 4 d.dst s) ∧
    directRead (.dmaCnt c) 4 s = .next (afterRead cnt 4 (d.cnt.setWidth 32) s) ∧
    (d.en = false →
      directWrite (.dmaSrc c) 4 v s = .next ((afterWrite src 4 v s).setDma c { d with src := v }) ∧
      directWrite (.dmaDst c) 4 v s = .next ((afterWrite dst 4 v s).setDma c { d with dst := v }) ∧
      directWrite (.dmaCnt c) 4 v s =
        .next ((afterWrite cnt 4 v s).setDma c { d with cnt := v.extractLsb' 0 16 })) ∧
    (d.en = true →
      directWrite (.dmaSrc c) 4 v s = refused src ∧ directWrite (.dmaDst c) 4 v s = refused dst ∧
      directWrite (.dmaCnt c) 4 v s = refused cnt) ∧
    (n ≠ 4 →
      directRead (.dmaSrc c) n s = refused src ∧ directWrite (.dmaSrc c) n v s = refused src ∧
      directRead (.dmaDst c) n s = refused dst ∧ directWrite (.dmaDst c) n v s = refused dst ∧
      directRead (.dmaCnt c) n s = refused cnt ∧ directWrite (.dmaCnt c) n v s = refused cnt) := by
  intro d src dst cnt refused
  have hsrc : isTransferReg c (.dmaSrc c) := .inl rfl
  have hdst : isTransferReg c (.dmaDst c) := .inr (.inl rfl)
  have hcnt : isTransferReg c (.dmaCnt c) := .inr (.inr rfl)
  have hd (off : Byte) : (afterWrite off 4 v s).dma c = d := emit_dma s _ c
  refine ⟨directRead_word (r := .dmaSrc c) h rfl, directRead_word (r := .dmaDst c) h rfl,
    directRead_word (r := .dmaCnt c) h rfl, fun hoff => ⟨?_, ?_, ?_⟩, fun hon => ?_, fun hn => ?_⟩
  · exact directWrite_stopped h hsrc hoff (by rw [writeReg, writeDmaSrc, hd])
  · exact directWrite_stopped h hdst hoff (by rw [writeReg, writeDmaDst, hd])
  · exact directWrite_stopped h hcnt hoff (by rw [writeReg, writeDmaCnt, hd])
  · exact ⟨directWrite_running h hsrc hon, directWrite_running h hdst hon, directWrite_running h hcnt hon⟩
  · exact ⟨directRead_badSize h nofun hn, directWrite_badSize h nofun hn, directRead_badSize h nofun hn,
      directWrite_badSize h nofun hn, directRead_badSize h nofun hn, directWrite_badSize h nofun hn⟩

/-- Settles O25: the accesses of both channels' transfer registers. -/
theorem dmaConfiguration : Obligations.DmaConfiguration := by
  unfold Obligations.DmaConfiguration
  intro s n v h
  obtain ⟨src0, dst0, cnt0, stopped0, running0, sizes0⟩ := transferReg_accesses .ch0 n v h
  exact ⟨src0, dst0, cnt0, stopped0, running0, sizes0, transferReg_accesses .ch1 n v h⟩

/-! ### DMA_CTRL -/

theorem dmaCtrlImage_eq (d : DmaChan) :
    dmaCtrlImage d = BitVec.ofNat 32 (8 * d.ie.toNat + 4 * d.dinc.toNat + 2 * d.sinc.toNat + d.en.toNat) := by
  unfold dmaCtrlImage
  cases d.ie <;> cases d.dinc <;> cases d.sinc <;> cases d.en <;> rfl

/-- A stopped channel with SINC, DINC and IE taken from the written word (R482). -/
def configured (v : Word) (d : DmaChan) : DmaChan :=
  { d with sinc := v.getLsbD 1, dinc := v.getLsbD 2, ie := v.getLsbD 3 }

theorem dmaConfigure_stopped {d : DmaChan} (h : d.en = false) (v : Word) : dmaConfigure v d = configured v d := by
  rw [dmaConfigure, if_neg (ne_true_of_eq_false h)]
  rfl

theorem writeDmaCtrl_running {c : Chan} {s : State} (hon : (s.dma c).en = true) (v : Word) :
    writeDmaCtrl c v s = s.setDma c { s.dma c with en := v.getLsbD 0 } := by
  simp [writeDmaCtrl, dmaConfigure, hon, bitOf]

/-- A stopped channel is configured, and then left stopped, completed or started (R482). -/
theorem writeDmaCtrl_stopped {c : Chan} {s : State} (hoff : (s.dma c).en = false) (v : Word) :
    writeDmaCtrl c v s =
      if v.getLsbD 0 = true then
        if (s.dma c).cnt = 0 then dmaComplete c (s.setDma c (configured v (s.dma c)))
        else s.setDma c { configured v (s.dma c) with en := true }
      else s.setDma c (configured v (s.dma c)) := by
  have hen : ¬ (configured v (s.dma c)).en = true := ne_true_of_eq_false hoff
  simp only [writeDmaCtrl, dmaConfigure_stopped hoff]
  rw [if_neg hen]
  rfl

/-- Completion of a channel that is stopped already (R487). -/
theorem dmaComplete_stopped {c : Chan} {d : DmaChan} (hoff : d.en = false) (s : State) :
    dmaComplete c (s.setDma c d) =
      (s.setDma c { d with done := true }).setDmairq (if d.ie = true then true else s.dmairq) := by
  cases c <;> cases hie : d.ie <;> simp [dmaComplete, State.setDmairq, State.setDma, State.dma, hoff, hie]

/-- The accesses of DMA_CTRL of channel `c`, the refused sizes apart. -/
theorem dmaCtrl_accesses (c : Chan) (v : Word) {s : State} (h : mayAccess s) :
    let d := s.dma c
    let off := regOffset (.dmaCtrl c)
    directRead (.dmaCtrl c) 4 s = .next (afterRead off 4
      (BitVec.ofNat 32 (8 * d.ie.toNat + 4 * d.dinc.toNat + 2 * d.sinc.toNat + d.en.toNat)) s) ∧
    (d.en = true → (v.getLsbD 1, v.getLsbD 2, v.getLsbD 3) ≠ (d.sinc, d.dinc, d.ie) →
      directWrite (.dmaCtrl c) 4 v s = .next (afterHalt (.badRegisterAccess off) s)) ∧
    (d.en = true → (v.getLsbD 1, v.getLsbD 2, v.getLsbD 3) = (d.sinc, d.dinc, d.ie) →
      directWrite (.dmaCtrl c) 4 v s = .next ((afterWrite off 4 v s).setDma c { d with en := v.getLsbD 0 })) ∧
    (d.en = false →
      (v.getLsbD 0 = false →
        directWrite (.dmaCtrl c) 4 v s = .next ((afterWrite off 4 v s).setDma c (configured v d))) ∧
      (v.getLsbD 0 = true → d.cnt ≠ 0 →
        directWrite (.dmaCtrl c) 4 v s =
          .next ((afterWrite off 4 v s).setDma c { configured v d with en := true })) ∧
      (v.getLsbD 0 = true → d.cnt = 0 →
        directWrite (.dmaCtrl c) 4 v s =
          .next (((afterWrite off 4 v s).setDma c { configured v d with done := true }).setDmairq
            (if v.getLsbD 3 = true then true else s.dmairq)))) := by
  intro d off
  have hd : (afterWrite off 4 v s).dma c = d := emit_dma s _ c
  have hwrite (hok : configOk v d) : directWrite (.dmaCtrl c) 4 v s = .next (writeDmaCtrl c v (afterWrite off 4 v s)) :=
    directWrite_word h (regWriteOk_dmaCtrl hok) rfl
  refine ⟨?_, fun hon hne => ?_, fun hon hsame => ?_,
    fun hoff => ⟨fun hv => ?_, fun hv hcnt => ?_, fun hv hcnt => ?_⟩⟩
  · rw [← dmaCtrlImage_eq]
    exact directRead_word (r := .dmaCtrl c) h rfl
  · refine directWrite_refused h.1 h.2 ?_
    rw [regWriteOk, regDmaBusy, hon, (dmaCtrlChanges_iff v d).mpr hne]
    rfl
  · rw [hwrite (.inr hsame.symm), writeDmaCtrl_running (hd.symm ▸ hon), hd]
  · rw [hwrite (.inl hoff), writeDmaCtrl_stopped (hd.symm ▸ hoff), if_neg (ne_true_of_eq_false hv), hd]
  · rw [hwrite (.inl hoff), writeDmaCtrl_stopped (hd.symm ▸ hoff), if_pos hv, hd, if_neg hcnt]
  · rw [hwrite (.inl hoff), writeDmaCtrl_stopped (hd.symm ▸ hoff), if_pos hv, hd, if_pos hcnt,
      dmaComplete_stopped (d := configured v d) hoff]
    rfl

/-- Settles O26: both channels' registers by the accesses of DMA_CTRL, the refusals by the size check. -/
theorem dmaControl : Obligations.DmaControl := by
  unfold Obligations.DmaControl
  intro s n v h cfg
  obtain ⟨read0, refused0, running0, stopped0⟩ := dmaCtrl_accesses .ch0 v h
  obtain ⟨read1, refused1, running1, stopped1⟩ := dmaCtrl_accesses .ch1 v h
  exact ⟨read0, refused0, running0, stopped0,
    fun hn => ⟨directRead_badSize h nofun hn, directWrite_badSize h nofun hn⟩,
    read1, refused1, running1, stopped1,
    fun hn => ⟨directRead_badSize h nofun hn, directWrite_badSize h nofun hn⟩⟩

/-! ### DMA_FLAGS and DMA_IRQ -/

theorem dmaFlagsImage_eq (d : DmaChan) : dmaFlagsImage d = BitVec.ofNat 32 (2 * d.err.toNat + d.done.toNat) := by
  unfold dmaFlagsImage
  cases d.err <;> cases d.done <;> rfl

theorem writeDmaFlags_eq (c : Chan) (v : Word) (s : State) :
    writeDmaFlags c v s = s.setDma c { s.dma c with
      done := if v.getLsbD 0 then false else (s.dma c).done
      err := if v.getLsbD 1 then false else (s.dma c).err } := by
  rw [writeDmaFlags, w1c_eq, w1c_eq]

theorem directRead_dmaFlags (c : Chan) {s : State} (h : mayAccess s) :
    directRead (.dmaFlags c) 4 s = .next (afterRead (regOffset (.dmaFlags c)) 4
      (BitVec.ofNat 32 (2 * (s.dma c).err.toNat + (s.dma c).done.toNat)) s) := by
  rw [← dmaFlagsImage_eq]
  exact directRead_word (r := .dmaFlags c) h rfl

theorem directWrite_dmaFlags (c : Chan) (v : Word) {s : State} (h : mayAccess s) :
    directWrite (.dmaFlags c) 4 v s =
      .next ((afterWrite (regOffset (.dmaFlags c)) 4 v s).setDma c { s.dma c with
        done := if v.getLsbD 0 then false else (s.dma c).done
        err := if v.getLsbD 1 then false else (s.dma c).err }) := by
  refine directWrite_word h rfl (congrArg some ((writeDmaFlags_eq c v _).trans ?_))
  cases c <;> rfl

theorem writeDmaIrq_eq (v : Word) (s : State) :
    writeDmaIrq v s = s.setDmairq (if v.getLsbD 0 then false else s.dmairq) := by
  rw [writeDmaIrq, w1c_eq]

/-- Settles O27: the flags by channel; a cleared request is the handler's whole enabling condition. -/
theorem dmaFlagsAndRequest : Obligations.DmaFlagsAndRequest := by
  unfold Obligations.DmaFlagsAndRequest
  intro s n v h
  refine ⟨directRead_dmaFlags .ch0 h, directWrite_dmaFlags .ch0 v h, directRead_dmaFlags .ch1 h,
    directWrite_dmaFlags .ch1 v h, ?_,
    ⟨_, directWrite_word (r := .dmaIrq) h rfl (congrArg some (writeDmaIrq_eq v _)), rfl, fun hv => if_pos hv⟩,
    fun hn => ?_⟩
  · rw [← bitWord_zero]
    exact directRead_word (r := .dmaIrq) h rfl
  · exact ⟨directRead_badSize h nofun hn, directWrite_badSize h nofun hn, directRead_badSize h nofun hn,
      directWrite_badSize h nofun hn, directRead_badSize h nofun hn, directWrite_badSize h nofun hn⟩

end Sys2Proof.Safety
end

section
/-! PROOF. O31, O32: a channel's transfer step. What each of its two byte accesses does, or that it is an access error, by where the address lies; then the step with both accesses done, and with the first or the second one failing (43_dma_engine.md R486-R488; 20_memory.md R213). -/

namespace Sys2Proof.Safety

open Sys2Proof.Machine

/-! ### A channel's two accesses -/

/-- `s` with channel `c`'s read of the received byte `b` from SPI_DR done. -/
def channelTook (c : Chan) (b : Byte) (s : State) : State :=
  (s.setSpi { s.spi with rxne := false }).emit (.regAcc (.dma c) 0x00#8 1 .read (byteWord b))

/-- `s` with channel `c`'s write of `b` to SPI_DR done. -/
def channelLoaded (c : Chan) (b : Byte) (s : State) : State :=
  (s.emit (.regAcc (.dma c) 0x00#8 1 .write (byteWord b))).setSpi { s.spi with txbuf := b, txe := false }

/-- `s` with channel `c`'s store of `b` at `a` done. -/
def channelStored (c : Chan) (a : Word) (b : Byte) (s : State) : State :=
  (s.setMem (memPut s.mem a.toNat b)).emit (.memWr (.dma c) a b)

theorem dmaReadByte_spiDr {c : Chan} {a : Word} {b : Byte} {s : State} (ha : a = s.par.blockBase)
    (hb : s.spi.rxbuf = some b) : dmaReadByte c a s = some (b, channelTook c b s) := by
  obtain ⟨hin, hoff⟩ := window_blockBase s.par
  rw [dmaReadByte, ha, if_pos hin, if_pos hoff, regReadBy, readReg, readSpiDr_received hb]
  exact congrArg (fun x => some (x, channelTook c b s)) (lowByte_byteWord b)

theorem dmaWriteByte_spiDr {c : Chan} {a : Word} {s : State} (ha : a = s.par.blockBase)
    (htxe : s.spi.txe = true) (b : Byte) : dmaWriteByte c a b s = some (channelLoaded c b s) := by
  obtain ⟨hin, hoff⟩ := window_blockBase s.par
  rw [dmaWriteByte, ha, if_pos hin, if_pos hoff, regWriteBy, accessValue_byteWord, writeReg,
    writeSpiDr_empty (s := s.emit _) htxe, lowByte_byteWord]
  rfl

theorem dmaWriteByte_mem {c : Chan} {a : Word} {s : State} (hin : inWindow s.par a = false)
    (ha : admitted s.par a = true) (b : Byte) : dmaWriteByte c a b s = some (channelStored c a b s) := by
  rw [dmaWriteByte, hin, memWrite, if_pos ha]
  rfl

/-- An address a channel cannot access: in the register window but not SPI_DR's, or outside it and not admitted
(20_memory.md R213). -/
def badAddress (p : Params) (a : Word) : Prop :=
  (inWindow p a = true ∧ a ≠ p.blockBase) ∨ (inWindow p a = false ∧ admitted p a = false)

/-- SPI_DR stands at BLOCK_BASE only. -/
theorem windowOffset_eq_zero_iff (p : Params) (a : Word) : windowOffset p a = 0 ↔ a = p.blockBase := by
  rw [windowOffset]
  bv_omega

theorem dmaReadByte_bad {c : Chan} {a : Word} {s : State} (h : badAddress s.par a) : dmaReadByte c a s = none := by
  rcases h with ⟨hin, hne⟩ | ⟨hout, hadm⟩
  · rw [dmaReadByte, if_pos hin, if_neg (mt (windowOffset_eq_zero_iff _ _).mp hne)]
  · rw [dmaReadByte, hout, memRead, hadm]
    rfl

theorem dmaWriteByte_bad {c : Chan} {a : Word} {s : State} (h : badAddress s.par a) (b : Byte) :
    dmaWriteByte c a b s = none := by
  rcases h with ⟨hin, hne⟩ | ⟨hout, hadm⟩
  · rw [dmaWriteByte, if_pos hin, if_neg (mt (windowOffset_eq_zero_iff _ _).mp hne)]
  · rw [dmaWriteByte, hout, memWrite, hadm]
    rfl

/-! ### The step with both accesses done -/

/-- The count reaches 0 with the last byte. -/
theorem dmaAdvance_cnt_eq_zero_iff (d : DmaChan) : (dmaAdvance d).cnt = 0 ↔ d.cnt = 1 := by
  show d.cnt - 1 = 0 ↔ d.cnt = 1
  bv_omega

/-- Completion of the advanced channel (R487). -/
theorem dmaComplete_dmaAdvance {c : Chan} {d : DmaChan} (hlast : d.cnt = 1) (s : State) :
    dmaComplete c (s.setDma c (dmaAdvance d)) =
      (s.setDmairq (requestAfter d s.dmairq)).setDma c (moved d) := by
  have hreq : (s.dmairq || d.ie) = requestAfter d s.dmairq := by
    cases hie : d.ie <;> simp [requestAfter, hlast, hie]
  have hmoved : { dmaAdvance d with done := true, en := false } = moved d := by
    simp [moved, dmaAdvance, addrAdd, hlast]
  rw [← hreq, ← hmoved]
  cases c <;> rfl

/-- Before its last byte a channel only advances. -/
theorem setDma_dmaAdvance {c : Chan} {d : DmaChan} (hmore : d.cnt ≠ 1) (s : State) :
    s.setDma c (dmaAdvance d) = (s.setDmairq (requestAfter d s.dmairq)).setDma c (moved d) := by
  have hreq : requestAfter d s.dmairq = s.dmairq := if_neg fun h => hmore h.1
  have hmoved : dmaAdvance d = moved d := by
    rw [moved, if_neg hmore, if_neg hmore]
    rfl
  rw [hreq, hmoved]
  cases c <;> rfl

/-- A byte read and written: the channel advances, and completes with its last byte (R486, R487). -/
theorem dmaTransfer_of_moved {c : Chan} {s s1 s2 : State} {b : Byte}
    (hr : dmaReadByte c (s.dma c).src s = some (b, s1)) (hw : dmaWriteByte c (s.dma c).dst b s1 = some s2)
    (hd : s2.dma c = s.dma c) :
    dmaTransfer c s = (s2.setDmairq (requestAfter (s.dma c) s2.dmairq)).setDma c (moved (s.dma c)) := by
  simp only [dmaTransfer, hr, hw, hd]
  by_cases hlast : (s.dma c).cnt = 1
  · rw [if_pos ((dmaAdvance_cnt_eq_zero_iff _).mpr hlast), dmaComplete_dmaAdvance hlast]
  · rw [if_neg (mt (dmaAdvance_cnt_eq_zero_iff _).mp hlast), setDma_dmaAdvance hlast]

theorem dmaEnabled_iff (c : Chan) (s : State) :
    dmaEnabled c s = true ↔ (s.dma c).en = true ∧ (s.dma c).cnt.toNat > 0 ∧ dmaReq c s = true := by
  have hcnt : (s.dma c).cnt ≠ 0 ↔ (s.dma c).cnt.toNat > 0 := by
    bv_omega
  simp only [dmaEnabled, Bool.and_eq_true, bne_iff_ne, hcnt, and_assoc]

/-- Settles O31: the step by where the source and the destination lie; without its request the channel has none. -/
theorem dmaTransferMoves : Obligations.DmaTransfer := by
  unfold Obligations.DmaTransfer
  intro s c hrun hmem hen hcnt d r b finish
  have move {b s1 s2} (hreq : dmaReq c s = true) (hr : dmaReadByte c d.src s = some (b, s1))
      (hw : dmaWriteByte c d.dst b s1 = some s2) (hd : s2.dma c = d) :
      runs [.dma c] s = .next ((s2.setDmairq (requestAfter d s2.dmairq)).setDma c (moved d)) := by
    rw [runs_dma hrun ((dmaEnabled_iff c s).mpr ⟨hen, hcnt, hreq⟩), dmaTransfer_of_moved hr hw hd]
  refine ⟨fun hreq hin hadm => ?_, fun hreq hsrc hsome => ?_, fun hreq => ?_⟩
  · have hr := dmaReadByte_mem (c := c) hin hadm
    refine ⟨fun hdst htxe => ?_, fun hin' hadm' => ⟨_, stored_memPut hmem.1 d.dst b, ?_⟩⟩
    · rw [move hreq hr (dmaWriteByte_spiDr (s := s.emit _) hdst htxe b) (by simp [channelLoaded, d])]
      simp [finish, channelLoaded, State.emit, State.setSpi, State.setDmairq, b, byteWord]
    · rw [move hreq hr (dmaWriteByte_mem (s := s.emit _) hin' hadm' b) (by simp [channelStored, d])]
      simp [finish, channelStored, State.emit, State.setMem, State.setDmairq, b]
  · obtain ⟨x, hx⟩ := Option.isSome_iff_exists.mp hsome
    have hrx : r = x := by simp [r, hx]
    have hr := dmaReadByte_spiDr (c := c) hsrc hx
    rw [hrx]
    refine ⟨fun hdst htxe => ?_, fun hin' hadm' => ⟨_, stored_memPut hmem.1 d.dst x, ?_⟩⟩
    · rw [move hreq hr (dmaWriteByte_spiDr (s := channelTook c x s) hdst htxe x)
        (by simp [channelLoaded, channelTook, d])]
      simp [finish, channelLoaded, channelTook, State.emit, State.setSpi, State.setDmairq, byteWord]
    · rw [move hreq hr (dmaWriteByte_mem (s := channelTook c x s) hin' hadm' x)
        (by simp [channelStored, channelTook, d])]
      simp [finish, channelStored, channelTook, State.emit, State.setSpi, State.setMem, State.setDmairq, byteWord]
  · rw [runs_single hrun, turn_off (by simp [enabled, dmaEnabled, hreq])]

/-! ### The access errors -/

/-- Settles O32: a source that gives no byte, or a destination that takes none after the read. -/
theorem dmaAccessErrors : Obligations.DmaAccessErrors := by
  unfold Obligations.DmaAccessErrors
  intro s c hrun he d r b erred bad
  rw [runs_dma hrun he]
  refine ⟨fun hsrc => ?_, fun hdst hin hadm => ?_, fun hdst hsrc hsome => ?_⟩
  · exact congrArg _ (dmaTransfer_of_read_none (dmaReadByte_bad hsrc))
  · rw [dmaTransfer_of_write_none (dmaReadByte_mem hin hadm) (dmaWriteByte_bad (s := s.emit _) hdst _),
      dmaAccessError, emit_dma]
    rfl
  · obtain ⟨x, hx⟩ := Option.isSome_iff_exists.mp hsome
    have hd : (channelTook c x s).dma c = d := by simp [channelTook, d]
    have hrx : r = x := by simp [r, hx]
    rw [dmaTransfer_of_write_none (dmaReadByte_spiDr hsrc hx) (dmaWriteByte_bad (s := channelTook c x s) hdst _),
      dmaAccessError, hd, hrx]
    rfl

end Sys2Proof.Safety
end

section
/-! PROOF. O48: the notification timeout. Its turn is enabled exactly at D17 with no notification posted and where TIMEOUT_MODEL allows it; what it then does is the policy's (43_dma_engine.md R503). -/

namespace Sys2Proof.Safety

open Sys2Proof.Machine

/-- The shift engine has no step: neither START nor FINISH (42_spi_transport.md R444, R445). -/
theorem shiftEnabled_eq_false_iff (s : State) :
    shiftEnabled s = false ↔
      ¬ (s.spi.txe = false ∧ s.spi.bsy = false) ∧ ¬ (s.spi.bsy = true ∧ ¬ held s) := by
  simp only [shiftEnabled, startEnabled, finishEnabled, ← paceHolds_iff, Bool.or_eq_false_iff]
  simp

/-- No step that could still end the transfer is enabled: the `hung_only` condition (R503). -/
def stuck (s : State) : Prop :=
  ¬ (s.spi.txe = false ∧ s.spi.bsy = false) ∧ ¬ (s.spi.bsy = true ∧ ¬ held s) ∧
  ¬ (s.dma0.en = true ∧ s.dma0.cnt.toNat > 0 ∧ s.spi.txdmaen = true ∧ s.spi.txe = true) ∧
  ¬ (s.dma1.en = true ∧ s.dma1.cnt.toNat > 0 ∧ s.spi.rxdmaen = true ∧ s.spi.rxne = true) ∧
  s.dmairq = false

theorem hung_iff_stuck (s : State) : hung s = true ↔ stuck s := by
  have h0 : dmaReq .ch0 s = true ↔ s.spi.txdmaen = true ∧ s.spi.txe = true := Bool.and_eq_true_iff
  have h1 : dmaReq .ch1 s = true ↔ s.spi.rxdmaen = true ∧ s.spi.rxne = true := Bool.and_eq_true_iff
  have hch0 := not_congr (dmaEnabled_iff .ch0 s)
  have hch1 := not_congr (dmaEnabled_iff .ch1 s)
  rw [h0, Bool.not_eq_true] at hch0
  rw [h1, Bool.not_eq_true] at hch1
  simp only [hung, Bool.and_eq_true, Bool.not_eq_true', shiftEnabled_eq_false_iff, hch0, hch1, and_assoc]
  rfl

theorem timeoutAllowed_iff (s : State) :
    timeoutAllowed s = true ↔
      s.par.timeoutModel = .free ∨ (s.par.timeoutModel = .hungOnly ∧ stuck s) := by
  rw [timeoutAllowed, ← hung_iff_stuck]
  cases s.par.timeoutModel <;> simp

/-- The timeout of a task in an operation may happen. -/
def mayTimeOut (t : Nat) (l : Label) (s : State) : Prop :=
  l = .txd .d17 ∧ (s.taskAt t).notify = 0 ∧
    (s.par.timeoutModel = .free ∨ (s.par.timeoutModel = .hungOnly ∧ stuck s))

theorem timeoutEnabled_iff {t : Nat} {l : Label} {c : Locals} {ps : List Phase} {s : State} (hat : atStep t l c ps s) :
    timeoutEnabled t s = true ↔ mayTimeOut t l s := by
  obtain ⟨-, hcur, -⟩ := hat
  simp only [timeoutEnabled, waiting, hcur, mayTimeOut, Bool.and_eq_true, beq_iff_eq, timeoutAllowed_iff, and_assoc]

/-- The timeout halts under fatal. -/
theorem timeoutStep_fatal {t : Nat} {s : State} (hp : s.par.errorPolicy = .fatal) :
    timeoutStep t s = haltWith t (some (.step (.txd .d17))) (.transferTimedOut t) (s.emit (.timeout t)) := by
  simp [timeoutStep, hp, raise]

/-- The timeout goes to the abort under report. -/
theorem timeoutStep_report {t : Nat} {l : Label} {c : Locals} {ps : List Phase} {s : State} (hat : atStep t l c ps s)
    (hp : s.par.errorPolicy = .report) : timeoutStep t s = gotoStep t (.txd .t0) c (s.emit (.timeout t)) := by
  obtain ⟨-, hcur, -⟩ := hat
  simp [timeoutStep, hp, hcur]

/-- Settles O48: the turn is the timeout's step by the policy where it may happen, and no move elsewhere. -/
theorem notificationTimeout : Obligations.NotificationTimeout := by
  unfold Obligations.NotificationTimeout
  intro s t l c ps hrun hat isStuck may
  have hmay : enabled (.timeout t) s = true ↔ may := timeoutEnabled_iff hat
  rw [runs_single hrun]
  refine ⟨fun h hp => ?_, fun h hp => ?_, fun h => turn_off (Bool.eq_false_of_not_eq_true (mt hmay.mp h))⟩
  · rw [turn_on (hmay.mpr h), agentStep, timeoutStep_fatal hp]
    simp [haltWith, State.setHalted, State.emit]
  · rw [turn_on (hmay.mpr h), agentStep, timeoutStep_report hat hp]
    rfl

end Sys2Proof.Safety
end

section
/-! PROOF. O52: the pending-owner token. Only D1, the DMA-complete handler and T3 write it; every other step is made of operations that keep it (43_dma_engine.md R500; 20_memory.md R228). -/

namespace Sys2Proof.Safety

open Sys2Proof.Machine

/-- `f` keeps the pending-owner token. -/
def KeepsOwner (f : State → State) : Prop := ∀ s, (f s).owner = s.owner

namespace KeepsOwner

/-! ### The shared operations -/

theorem complete (t : Nat) (code data : Byte) : KeepsOwner (complete t code data) := fun _ => rfl

theorem raise (t : Nat) (p : Option Place) (e : Abnormal) : KeepsOwner (raise t p e) := fun s => by
  rcases raise_cases t p e s with h | ⟨-, -, ⟨l, -, h⟩ | ⟨-, h⟩⟩
  · rw [h]; rfl
  · rw [h]; exact complete t _ _ s
  · rw [h]; rfl

theorem gotoStep (t : Nat) (l : Label) (c : Locals) : KeepsOwner (gotoStep t l c) := fun _ => rfl

theorem startPhases (t : Nat) (ps : List Phase) (top : Option Invocation) (code data : Byte) :
    KeepsOwner (startPhases t ps top code data) := fun s => by
  rcases startPhases_cases t ps top code data s with h | h | ⟨c, rest, h⟩
  · rw [h]; exact complete t _ _ s
  · rw [h]; exact complete t _ _ s
  · rw [h]; rfl

theorem returnOp (t : Nat) (code data : Byte) : KeepsOwner (returnOp t code data) := fun s =>
  startPhases t _ _ code data s

theorem ite (p : State → Prop) [DecidablePred p] {f g : State → State} (hf : KeepsOwner f) (hg : KeepsOwner g) :
    KeepsOwner fun s => if p s then f s else g s := fun s => by
  dsimp only
  split
  · exact hf s
  · exact hg s

theorem exchange (b : Byte) : KeepsOwner (exchange b) := fun s => by
  obtain ⟨d, m, he⟩ := exchange_eq b s
  rw [he]
  rfl

theorem pinStep : KeepsOwner pinStep := fun s => by
  obtain ⟨d, q, hp⟩ := pinStep_eq s
  rw [hp]
  rfl

theorem memRead {a : Agent} {addr : Word} {s s' : State} {v : Byte} (h : memRead a addr s = some (v, s')) :
    s'.owner = s.owner := by
  obtain ⟨-, -, rfl⟩ := memRead_spec h
  rfl

theorem memWrite {a : Agent} {addr : Word} {v : Byte} {s s' : State} (h : memWrite a addr v s = some s') :
    s'.owner = s.owner := by
  obtain ⟨-, rfl⟩ := memWrite_spec h
  rfl

theorem dmaTransfer (c : Chan) : KeepsOwner (dmaTransfer c) := fun s =>
  dmaTransfer_keeps (I := fun s1 => s1.owner = s.owner)
    (fun h hi => (regReadBy_same h).owner.trans hi) (fun _ h hi => (regWriteBy_same h).owner.trans hi)
    (fun h hi => (memRead h).trans hi) (fun h hi => (memWrite h).trans hi)
    (fun s1 d _ hi => (setDma_owner s1 c d).trans hi)
    (fun s1 d hi => (dmaComplete_same c _).owner.trans ((setDma_owner s1 c d).trans hi)) rfl

/-! ### Shapes of steps, where what follows the access keeps the token -/

theorem stepRead {t : Nat} {l : Label} {r : Reg} {n : Nat} {k : Word → State → State}
    (hk : ∀ v, KeepsOwner (k v)) : KeepsOwner (stepRead t l r n k) := fun s => by
  rw [Machine.stepRead]
  rcases taskRead_cases t r n s with ⟨v, s1, h, hr⟩ | ⟨e, h, -⟩
  · rw [h]; exact (hk v s1).trans (regReadBy_same hr).owner
  · rw [h]; exact raise t _ e s

theorem stepMemRead {t : Nat} {l : Label} {a : Word} {k : Byte → State → State}
    (hk : ∀ b, KeepsOwner (k b)) : KeepsOwner (stepMemRead t l a k) := fun s => by
  rw [Machine.stepMemRead]
  rcases taskMemRead_cases t a s with ⟨-, h⟩ | ⟨-, h⟩
  · rw [h]; exact hk _ _
  · rw [h]; exact raise t _ _ s

theorem stepMemWrite {t : Nat} {l : Label} {a : Word} {b : Byte} {k : State → State} (hk : KeepsOwner k) :
    KeepsOwner (stepMemWrite t l a b k) := fun s => by
  rw [Machine.stepMemWrite]
  rcases taskMemWrite_cases t a b s with ⟨-, h⟩ | ⟨-, h⟩
  · rw [h]; exact hk _
  · rw [h]; exact raise t _ _ s

/-- A step that writes a register goes on with the token kept, or raises and keeps it. -/
theorem stepWrite_cases (t : Nat) (l : Label) (r : Reg) (n : Nat) (v : Word) (k : State → State) (s : State) :
    (∃ s1, s1.owner = s.owner ∧ Machine.stepWrite t l r n v k s = k s1) ∨
      (Machine.stepWrite t l r n v k s).owner = s.owner := by
  rw [Machine.stepWrite]
  rcases taskWrite_cases t r n v s with ⟨s1, h, -, hw⟩ | ⟨e, h, -⟩
  · rw [h]; exact .inl ⟨s1, (regWriteBy_same hw).owner, rfl⟩
  · rw [h]; exact .inr (raise t _ e s)

theorem stepWrite {t : Nat} {l : Label} {r : Reg} {n : Nat} {v : Word} {k : State → State} (hk : KeepsOwner k) :
    KeepsOwner (stepWrite t l r n v k) := fun s => by
  rcases stepWrite_cases t l r n v k s with ⟨s1, h1, h⟩ | h
  · rw [h, hk, h1]
  · exact h

theorem stepLength {t : Nat} {l : Label} {n : Nat} {k : Nat → State → State} (hk : ∀ x, KeepsOwner (k x)) :
    KeepsOwner (stepLength t l n k) :=
  ite (fun _ => (!frameLenOk n) = true) (raise t _ _)
    (ite (fun s => (!targetOk s.par (timerTarget s.par n)) = true) (fun s => raise t _ _ s) fun s => hk _ s)

theorem readThenGoto {t : Nat} {l l' : Label} {r : Reg} {n : Nat} {c : Word → Locals} :
    KeepsOwner (Machine.stepRead t l r n fun v => Machine.gotoStep t l' (c v)) :=
  stepRead fun _ => gotoStep _ _ _

theorem writeThenGoto {t : Nat} {l l' : Label} {r : Reg} {n : Nat} {v : Word} {c : Locals} :
    KeepsOwner (Machine.stepWrite t l r n v (Machine.gotoStep t l' c)) :=
  stepWrite (gotoStep _ _ _)

theorem writeThenReturn {t : Nat} {l : Label} {r : Reg} {n : Nat} {v : Word} {code data : Byte} :
    KeepsOwner (Machine.stepWrite t l r n v (Machine.returnOp t code data)) :=
  stepWrite (returnOp _ _ _)

theorem fetchThenGoto {t : Nat} {l l' : Label} {a : Word} {r : Reg} {n : Nat} {c : Locals} :
    KeepsOwner (Machine.stepMemRead t l a fun b =>
      Machine.stepWrite t l r n (byteWord b) (Machine.gotoStep t l' c)) :=
  stepMemRead fun _ => writeThenGoto

/-! ### The steps of the operations -/

theorem stepCopy (t i : Nat) (c : Locals) : KeepsOwner (stepCopy t i c) := fun s => by
  have hstore (b : Byte) : KeepsOwner (Machine.stepMemWrite t (.copy i) (addrAdd c.dst i) b fun s =>
      if i + 1 < c.n then Machine.gotoStep t (.copy (i + 1)) c s else Machine.returnOp t codeOk 0x00#8 s) :=
    stepMemWrite (ite (fun _ => i + 1 < c.n) (gotoStep _ _ _) (returnOp _ _ _))
  unfold Machine.stepCopy
  cases c.src with
  | lit bs => exact hstore _ s
  | mem a => exact stepMemRead hstore s

theorem stepRdb (t : Nat) (l : RdbLabel) (c : Locals) : KeepsOwner (stepRdb t l c) := by
  cases l with
  | r0 => exact readThenGoto
  | r1 => exact stepRead fun _ => returnOp _ _ _

theorem stepTxb (t : Nat) (l : TxbLabel) (c : Locals) : KeepsOwner (stepTxb t l c) := by
  cases l with
  | b0 | b3 | b4 => exact readThenGoto
  | b1 | b2 | b5 => exact writeThenGoto
  | b6 => exact returnOp t _ _

theorem stepTxp (t : Nat) (l : TxpLabel) (c : Locals) : KeepsOwner (stepTxp t l c) := by
  cases l with
  | p0 => exact stepLength fun _ => gotoStep _ _ _
  | p1 | p5 | p7 | p9 => exact readThenGoto
  | p2 | p3 | p4 | p10 | p11 => exact writeThenGoto
  | p6 => exact fetchThenGoto
  | p8 => exact stepRead fun _ => stepMemWrite (gotoStep _ _ _)
  | p12 => exact returnOp t _ _

/-- Every step of TransmitDMA but D1 and T3. -/
theorem stepTxd {l : TxdLabel} (h1 : l ≠ .d1) (h3 : l ≠ .t3) (t : Nat) (c : Locals) :
    KeepsOwner (stepTxd t l c) := by
  cases l with
  | d1 => exact absurd rfl h1
  | t3 => exact absurd rfl h3
  | d0 => exact stepLength fun _ => gotoStep _ _ _
  | d13 | t4 => exact readThenGoto
  | d14 => exact fetchThenGoto
  | d17 => exact fun _ => rfl
  | d23 => exact ite (fun _ => c.value ≠ Config.notifyExpected) (raise t _ _) (returnOp t _ _)
  | t5 => exact ite (fun s => s.spi.rxne = true) readThenGoto (gotoStep t _ _)
  | t10 => exact raise t _ _
  | d2 | d3 | d4 | d5 | d6 | d7 | d8 | d9 | d10 | d11 | d12 | d15 | d16 | d18 | d19 | d20 | d21 | d22
  | t0 | t1 | t2 | t6 | t7 | t8 | t9 => exact fun s => writeThenGoto s

theorem stepPulse (t : Nat) (l : PulseLabel) (c : Locals) : KeepsOwner (stepPulse t l c) := by
  cases l with
  | tp0 => exact ite (fun s => (!targetOk s.par Config.cePulseTicks) = true) (raise t _ _) writeThenGoto
  | tp1 => exact writeThenGoto
  | tp2 => exact readThenGoto
  | tp3 => exact writeThenReturn

theorem stepInitIO (t : Nat) (l : InitLabel) (c : Locals) : KeepsOwner (stepInitIO t l c) := by
  cases l with
  | i0 | i1 => exact writeThenGoto
  | i2 => exact writeThenReturn

end KeepsOwner

/-- D1 takes a free token; a held one it keeps. -/
theorem stepTxd_d1_owner (t : Nat) (c : Locals) (s : State) :
    (stepTxd t .d1 c s).owner = s.owner ∨ (s.owner = none ∧ (stepTxd t .d1 c s).owner = some t) := by
  have hd1 : stepTxd t .d1 c s =
      if s.owner.isSome = true then raise t (some (.step (.txd .d1))) .transactionInProgress s
      else gotoStep t (.txd .d2) c (s.setOwner (some t)) := rfl
  rw [hd1]
  split
  next => exact .inl (KeepsOwner.raise t _ _ s)
  next hfree => exact .inr ⟨by simpa using hfree, rfl⟩

/-- T3 frees the token, or its write raises. -/
theorem stepTxd_t3_owner (t : Nat) (c : Locals) (s : State) :
    (stepTxd t .t3 c s).owner = s.owner ∨ (stepTxd t .t3 c s).owner = none := by
  unfold stepTxd
  rcases KeepsOwner.stepWrite_cases t (.txd .t3) .dmaIrq 4 0x1
    (fun s => gotoStep t (.txd .t4) c ((s.setOwner none).setNotify t 0)) s with ⟨s1, -, h⟩ | h
  · exact .inr (h ▸ rfl)
  · exact .inl h

/-- A step of task `t`'s operation keeps the token, or is D1 taking it or T3 freeing it. -/
theorem operationStep_owner (t : Nat) (c : Cur) (s : State) :
    (operationStep t c s).owner = s.owner ∨
      (c.label = .txd .d1 ∧ s.owner = none ∧ (operationStep t c s).owner = some t) ∨
        (c.label = .txd .t3 ∧ (operationStep t c s).owner = none) := by
  obtain ⟨label, loc⟩ := c
  cases label with
  | txd l =>
    by_cases h1 : l = .d1
    · subst h1
      exact (stepTxd_d1_owner t loc s).imp_right fun h => .inl ⟨rfl, h⟩
    · by_cases h3 : l = .t3
      · subst h3
        exact (stepTxd_t3_owner t loc s).imp_right fun h => .inr ⟨rfl, h⟩
      · exact .inl (KeepsOwner.stepTxd h1 h3 t loc s)
  | rdb l => exact .inl (KeepsOwner.stepRdb t l loc s)
  | txb l => exact .inl (KeepsOwner.stepTxb t l loc s)
  | txp l => exact .inl (KeepsOwner.stepTxp t l loc s)
  | scs => exact .inl (KeepsOwner.writeThenReturn s)
  | pulse l => exact .inl (KeepsOwner.stepPulse t l loc s)
  | initIO l => exact .inl (KeepsOwner.stepInitIO t l loc s)
  | copy i => exact .inl (KeepsOwner.stepCopy t i loc s)

/-! ### Instructions and the other agents -/

theorem emitCommandByte_owner {b : Byte} {s s' : State} (h : emitCommandByte b s = .next s') :
    s'.owner = s.owner := by
  unfold emitCommandByte at h
  split at h
  · cases h
  · split at h
    · cases h; exact KeepsOwner.exchange b s
    · cases h; rfl

/-- No instruction writes the token. -/
theorem exec_owner {i : Instr} {s s' : State} (h : exec i s = .next s') : s'.owner = s.owner := by
  rcases exec_shape i s with ⟨r, n, hi⟩ | ⟨r, n, v, hi⟩ | ⟨b, hi⟩ | ⟨isTxd, d, x, y, checks, ps, hi⟩
  · rcases directRead_cases (hi ▸ h) with ⟨v, hr⟩ | ⟨e, rfl⟩
    · exact (regReadBy_same hr).owner
    · rfl
  · rcases directWrite_cases (hi ▸ h) with ⟨-, hw⟩ | ⟨e, rfl⟩
    · exact (regWriteBy_same hw).owner
    · rfl
  · exact emitCommandByte_owner (hi ▸ h)
  · obtain ⟨-, ⟨e, rfl⟩ | ⟨-, -, rfl⟩⟩ := issue_cases (hi ▸ h)
    · exact KeepsOwner.raise _ _ e _
    · exact KeepsOwner.startPhases _ ps _ _ _ _

theorem rejectInvocation_owner (t : Nat) (inv : Invocation) (s : State) :
    (rejectInvocation t inv s).owner = s.owner := by
  cases inv with
  | op d x y => exact KeepsOwner.raise t _ _ _
  | acc off n dir v =>
    unfold rejectInvocation directUnassigned
    cases otherActive t s <;> exact KeepsOwner.raise t _ _ s

theorem invoke_owner {t : Nat} {inv : Invocation} {rest : List Invocation} {s s' : State}
    (h : invoke t inv rest s = .next s') : s'.owner = s.owner := by
  unfold invoke at h
  split at h
  · exact exec_owner (s := (s.setCurTask t).setProg t rest) h
  · cases h
    exact rejectInvocation_owner t inv _

theorem shiftStep_owner {s s' : State} (h : shiftStep s = .next s') : s'.owner = s.owner := by
  unfold shiftStep at h
  split at h
  · cases h; rfl
  · split at h
    · exact exec_owner h
    · cases h; exact KeepsOwner.exchange _ s

theorem timeoutStep_owner (t : Nat) (s : State) : (timeoutStep t s).owner = s.owner := by
  unfold timeoutStep
  cases s.par.errorPolicy with
  | fatal => exact KeepsOwner.raise t _ _ _
  | report => cases (s.taskAt t).ctx.cur <;> rfl

/-- The DMA-complete handler leaves the token free (60_exceptions.md R620). -/
theorem dmaHandlerStep_owner (s : State) : (dmaHandlerStep s).owner = none := by
  unfold dmaHandlerStep
  cases ho : s.owner with
  | none => exact (handlerWrite_same _ _ _ s).owner.trans ho
  | some u => exact (handlerWrite_same _ _ _ _).owner

/-! ### The three places -/

/-- The turn of agent `a` from `s` to `s'` wrote the token at one of its three places. -/
def ownerWritten (a : Agent) (s s' : State) : Prop :=
  (∃ t c ps, a = .task t ∧ atStep t (.txd .d1) c ps s ∧ s.owner = none ∧ s'.owner = some t) ∨
    (a = .dmaHandler ∧ s.dmairq = true ∧ s.owner ≠ none ∧ s'.owner = none) ∨
      (∃ t c ps, a = .task t ∧ atStep t (.txd .t3) c ps s ∧ s'.owner = none)

/-- A task with a next step stands at that step's label. -/
theorem atStep_of_cur {t : Nat} {c : Cur} {s : State} (h : (s.taskAt t).ctx.cur = some c) :
    atStep t c.label c.loc (s.taskAt t).ctx.phases s := by
  refine ⟨isTask_of_taskAt_ne fun hl => ?_, h, rfl⟩
  rw [hl] at h
  cases h

theorem taskStep_owner {t : Nat} {s s' : State} (h : taskStep t s = .next s') (hne : s'.owner ≠ s.owner) :
    ownerWritten (.task t) s s' := by
  unfold taskStep at h
  split at h
  · rename_i c hc
    cases h
    have hat := atStep_of_cur hc
    rcases operationStep_owner t c (s.setCurTask t) with hsame | ⟨hl, hfree, htaken⟩ | ⟨hl, hfreed⟩
    · exact absurd hsame hne
    · exact .inl ⟨t, c.loc, _, rfl, hl ▸ hat, hfree, htaken⟩
    · exact .inr (.inr ⟨t, c.loc, _, rfl, hl ▸ hat, hfreed⟩)
  · split at h
    · exact absurd (invoke_owner h) hne
    · cases h; exact absurd rfl hne

theorem turn_owner {a : Agent} {s s' : State} (h : turn a s = .next s') (hne : s'.owner ≠ s.owner) :
    ownerWritten a s s' := by
  by_cases he : enabled a s = true
  · rw [turn_on he] at h
    cases a with
    | task t => exact taskStep_owner h hne
    | dmaHandler =>
      cases h
      have hfreed := dmaHandlerStep_owner s
      exact .inr (.inl ⟨rfl, he, fun hfree => hne (hfreed.trans hfree.symm), hfreed⟩)
    | shift => exact absurd (shiftStep_owner h) hne
    | dma c => cases h; exact absurd (KeepsOwner.dmaTransfer c s) hne
    | irqHandler => cases h; exact absurd (handlerWrite_same _ _ _ s).owner hne
    | timer | ovfHandler => cases h; exact absurd rfl hne
    | device => cases h; exact absurd (KeepsOwner.pinStep s) hne
    | timeout t => cases h; exact absurd (timeoutStep_owner t s) hne
  · rw [turn_off (by simpa using he)] at h
    cases h; exact absurd rfl hne

/-- A step is the turn of the agent it draws. -/
theorem turn_of_step {s s' : State} (h : step s = .next s') : turn (chosen s) (drawn s) = .next s' := by
  unfold step oneStep at h
  split at h
  · split at h
    · cases h
    · exact h
  · cases h

/-- Settles O52: the turn that the step hands out writes the token at one of the three places. -/
theorem ownerWrittenAtThreePlaces : Obligations.OwnerWrittenAtThreePlaces := by
  unfold Obligations.OwnerWrittenAtThreePlaces
  intro s s' h hne
  have hturn := turn_of_step h
  obtain ⟨d, hd⟩ := drawAgent_eq s
  have hdrawn : drawn s = s.setDraws d := hd
  rw [hdrawn] at hturn
  exact turn_owner (s := s.setDraws d) hturn hne

end Sys2Proof.Safety
end

section
/-! PROOF. O22, O37: the IRQ input. Its two registers read and write their own fields, and the device's pin step sets PEND on the configured edge only (44_frame_sequencer.md R560-R562). -/

namespace Sys2Proof.Safety

open Sys2Proof.Machine

theorem irqCfgImage_eq (q : IrqState) :
    irqCfgImage q = BitVec.ofNat 32 (4 * q.pullup.toNat + 2 * q.falling.toNat + q.en.toNat) := by
  unfold irqCfgImage
  cases q.pullup <;> cases q.falling <;> cases q.en <;> rfl

theorem irqPendImage_eq (q : IrqState) : irqPendImage q = BitVec.ofNat 32 (2 * q.pin.toNat + q.pend.toNat) := by
  unfold irqPendImage
  cases q.pin <;> cases q.pend <;> rfl

theorem writeIrqPend_eq (v : Word) (s : State) :
    writeIrqPend v s = s.setIrq { s.irq with pend := if v.getLsbD 0 then false else s.irq.pend } := by
  rw [writeIrqPend, w1c_eq]

/-- Settles O22: each read by the value read, each write by its effect on the input, the refusals by the size
check. -/
theorem irqInputRegisters : Obligations.IrqInputRegisters := by
  unfold Obligations.IrqInputRegisters
  intro s n v h
  refine ⟨?_, directWrite_word (r := .irqCfg) h rfl rfl, ?_,
    directWrite_word (r := .irqPend) h rfl (congrArg some (writeIrqPend_eq v _)), fun hn =>
    ⟨directRead_badSize h nofun hn, directWrite_badSize h nofun hn, directRead_badSize h nofun hn,
      directWrite_badSize h nofun hn⟩⟩
  · rw [← irqCfgImage_eq]
    exact directRead_word (r := .irqCfg) h rfl
  · rw [← irqPendImage_eq]
    exact directRead_word (r := .irqPend) h rfl

/-- The two edges of R560 are one condition: the pin changed, and to the level that FALLING does not name. -/
theorem irqEdge_eq (q : IrqState) (p : Bool) :
    irqEdge q p = { q with
      pin := p
      pend := if q.en = true ∧ q.pin ≠ p ∧ p = !q.falling then true else q.pend } := by
  obtain ⟨en, falling, pullup, pend, pin⟩ := q
  cases en <;> cases falling <;> cases pin <;> cases p <;> simp [irqEdge]

/-- Settles O37: the device always has its step, which takes a draw and the edge's effect on the input. -/
theorem devicePin : Obligations.DevicePin := by
  unfold Obligations.DevicePin
  intro s hrun p
  obtain ⟨d, hd⟩ := drawPin_eq s
  rw [runs_single hrun, turn_on (a := .device) rfl, agentStep, pinStep, irqEdge_eq, hd]
  rfl

end Sys2Proof.Safety
end

section
/-! PROOF. O12, O13: issue of the composite operations. The words of their descriptors, the checks in their order, and the phase lists the issue fixes (44_frame_sequencer.md R522-R550; 60_exceptions.md R603). -/

namespace Sys2Proof.Safety

open Sys2Proof.Machine

/-! ### Descriptors and checks -/

/-- A descriptor as the or of its fields at their places (30_encoding.md R310). -/
theorem mkDesc_eq_or (o a b n : Byte) :
    mkDesc o a b n =
      o.setWidth 32 <<< 24 ||| a.setWidth 32 <<< 16 ||| b.setWidth 32 <<< 8 ||| n.setWidth 32 := by
  have hout (f : Byte) {j : Nat} (hj : 8 ≤ j) : f.getLsbD j = false := f.getLsbD_of_ge j hj
  ext i hi
  simp only [← BitVec.getLsbD_eq_getElem, mkDesc_getLsbD, BitVec.getLsbD_or, BitVec.getLsbD_shiftLeft,
    BitVec.getLsbD_setWidth]
  grind

theorem firstError_pass {bad : Prop} [Decidable bad] (h : ¬ bad) (e : Abnormal) (r : List (Bool × Abnormal)) :
    firstError ((decide bad, e) :: r) = firstError r := by
  rw [firstError, decide_eq_false h]
  rfl

theorem firstError_fail {bad : Prop} [Decidable bad] (h : bad) (e : Abnormal) (r : List (Bool × Abnormal)) :
    firstError ((decide bad, e) :: r) = some e := by
  rw [firstError, decide_eq_true h]
  rfl

section Issue

variable {isTxd : Bool} {d x y : Word} {checks : List (Bool × Abnormal)} {s : State} (h : mayIssue s)
include h

/-- An issue that passes its checks starts its first phase, a base operation. -/
theorem issue_base (hc : firstError checks = none) (op : BaseOp) (ps : List Phase) :
    issue isTxd d x y checks (.base op :: ps) s = .next (issued d x y (firstStep op) ps s) :=
  issue_ok h.1 h.2 hc

/-- An issue that passes its checks starts its first phase, a copy of some byte. -/
theorem issue_copy (hc : firstError checks = none) (dst : Word) (src : ByteSource) (n : Nat) (ps : List Phase) :
    issue isTxd d x y checks (.copy dst src (n + 1) :: ps) s =
      .next (issued d x y ⟨.copy 0, { n := n + 1, dst := dst, src := src }⟩ ps s) :=
  issue_ok h.1 h.2 hc

/-- An issue that fails a check is rejected with the error of the first that fails. -/
theorem issue_rejected {e : Abnormal} (hc : firstError checks = some e) (he : isFault e = false)
    (ps : List Phase) : issue isTxd d x y checks ps s = .next (rejected d x y e (abnormalCode e) s) := by
  obtain ⟨hh, ha⟩ := h
  rw [← raise_issue_eq_rejected he]
  simp [issue, serializationError, hh, ha, hc]

end Issue

theorem mkDesc_wreg (reg v : Byte) :
    mkDesc 0x20 reg v 0 = 0x20000000#32 ||| reg.setWidth 32 <<< 16 ||| v.setWidth 32 <<< 8 := by
  simp [mkDesc_eq_or]

theorem mkDesc_waddr (reg n : Byte) :
    mkDesc 0x21 reg 0 n = 0x21000000#32 ||| reg.setWidth 32 <<< 16 ||| n.setWidth 32 := by
  simp [mkDesc_eq_or]

theorem mkDesc_cmd (b : Byte) : mkDesc 0x22 0 b 0 = 0x22000000#32 ||| b.setWidth 32 <<< 8 := by
  simp [mkDesc_eq_or]

theorem mkDesc_send (n : Byte) : mkDesc 0x24 0 0 n = 0x24000000#32 ||| n.setWidth 32 := by
  simp [mkDesc_eq_or]

/-! ### The operations -/

/-- Settles O12: the checks pass, and the first phase of the operation's list is started. -/
theorem issueFrameOperations : Obligations.IssueFrameOperations := by
  unfold Obligations.IssueFrameOperations
  intro s x y h tx rx lits copy poll dma
  refine ⟨fun reg v hreg => ?_, fun reg n hn hreg => ?_, fun b => ?_, ?_, fun n h1 h30 => ?_, fun haddr => ?_⟩
  · rw [← mkDesc_wreg]
    exact issue_copy h (firstError_pass (Nat.not_lt.mpr hreg) _ _) _ _ _ _
  · rw [← mkDesc_waddr]
    have hchecks := (firstError_pass (Nat.not_lt.mpr hn) (.addressTooLong n.toNat) _).trans
      (firstError_pass (Nat.not_lt.mpr hreg) (.invalidRegister reg) [])
    exact issue_copy h hchecks _ _ _ _
  · rw [← mkDesc_cmd]
    exact issue_base (checks := []) h rfl (.transmitByte b) []
  · exact issue_copy (checks := []) h rfl _ _ _ _
  · rw [← mkDesc_send]
    have hlen : BitVec.ofNat 8 (lenOf n) = n := by simp [lenOf]
    have hchecks := (firstError_pass (Nat.one_le_iff_ne_zero.mp h1) (.invalidLength n.toNat) _).trans
      (firstError_pass (Nat.not_lt.mpr h30) (.payloadTooLarge n.toNat) [])
    rw [exec, execSend, sendPhases, hlen]
    exact issue_copy h hchecks _ _ _ _
  · have hframe (b : Byte) : initAddrFrame s.par b = [copy (b :: s.par.initAddr), dma 6] := by
      simp only [initAddrFrame, copy, dma, List.length_cons, haddr, tx, rx]
    rw [exec, execInit, initPhases, hframe, hframe]
    exact issue_base (checks := []) h rfl .initIO _

/-- Settles O13: the first check of the operation's list that fails is the one the statement names. -/
theorem issueChecks : Obligations.IssueChecks := by
  unfold Obligations.IssueChecks
  intro s x y h
  refine ⟨fun reg v hreg => ?_, fun reg n hn => ?_, fun reg n hn hreg => ?_, ?_, fun n hn => ?_⟩
  · rw [← mkDesc_wreg]
    exact issue_rejected h (firstError_fail hreg _ _) rfl _
  · rw [← mkDesc_waddr]
    exact issue_rejected h (firstError_fail hn _ _) rfl _
  · rw [← mkDesc_waddr]
    have hchecks := (firstError_pass (Nat.not_lt.mpr hn) (.addressTooLong n.toNat) _).trans
      (firstError_fail hreg (.invalidRegister reg) [])
    exact issue_rejected h hchecks rfl _
  · rw [exec, execSend]
    exact issue_rejected h (firstError_fail rfl _ _) rfl _
  · rw [← mkDesc_send]
    have hpos : n.toNat ≠ 0 := by omega
    have hchecks := (firstError_pass hpos (.invalidLength n.toNat) _).trans
      (firstError_fail (Nat.le_of_succ_le_succ hn) (.payloadTooLarge n.toNat) [])
    exact issue_rejected h hchecks rfl _

end Sys2Proof.Safety
end

section
/-! PROOF. O41, O42: TriggerPulse and InitIO, label by label. Writing 1 to CE's register of a level makes CE that level; ten ticks after the timer's start the count is 10 (44_frame_sequencer.md R525, R551; 40_chip_select.md R404, R405; 41_timer.md R426-R429). -/

namespace Sys2Proof.Safety

open Sys2Proof.Machine

/-! ### The CE line -/

/-- The CeChange event of a write that makes CE `level`: none where CE stands there already. -/
def ceEvents (level : Bool) (s : State) : List Event := if s.ce.level = level then [] else [.ceChange level]

/-- The state with task `t`'s write of CE's register done: the access recorded, CE at `level`, the event of a
change. -/
def ceWritten (t : Nat) (level : Bool) (s : State) : State :=
  { s with
    ce := { s.ce with level := level }
    hist := s.hist ++ [.regAcc (.task t) (regOffset (ceReg level)) 4 .write 1] ++ ceEvents level s }

/-- Writing 1 to CE's register of a level makes CE that level, with the event of a change (R404, R405). -/
theorem writeReg_ceReg_one (level : Bool) (s : State) :
    writeReg (ceReg level) 1 s =
      some { s with ce := { s.ce with level := level }, hist := s.hist ++ ceEvents level s } := by
  by_cases h : s.ce.level = level
  · rw [writeReg_ceReg_stays (.inl h), ceEvents, if_pos h, List.append_nil, ← h]
  · rw [writeReg_ceReg_moves (Bool.eq_not_of_ne h) rfl, ceEvents, if_neg h]
    rfl

theorem writeReg_ceReg_recorded (t : Nat) (level : Bool) (s : State) :
    writeReg (ceReg level) 1 (recorded t (ceReg level) 4 .write 1 s) = some (ceWritten t level s) :=
  writeReg_ceReg_one level _

/-- A step that writes 1 to a register of the CE line and returns. -/
theorem runs_ceReturn {t : Nat} {k : TaskState} {l : Label} {c : Locals} {s : State} (h : Ready t s) (level : Bool)
    (hhold : holdOk t ⟨l, c⟩ (atLabel t k l c s) = true)
    (hop : operationStep t ⟨l, c⟩ (atLabel t k l c s) =
      stepWrite t l (ceReg level) 4 1 (returnOp t codeOk 0x00#8) (atLabel t k l c s)) :
    runs [.task t] (atLabel t k l c s) = .next (afterReturn t k 0x00#8 k.ctx.phases (ceWritten t level s)) :=
  runs_return (s1 := ceWritten t level s) h h.isTask hhold
    (hop.trans (stepWrite_atLabel (regWriteOk_ceReg level 1 s) (writeReg_ceReg_recorded t level s)))

/-! ### InitIO -/

/-- Steps I0 and I1 of task `t` done: the IRQ input configured, the CE output driven. -/
def outputsConfigured (t : Nat) (s : State) : State := written t .ceCfg 1 (written t .irqCfg 7 s)

/-- Steps I0-I2: the two configuration writes, then CE low and the return. -/
theorem initIO_runs {s : State} {t : Nat} {c : Locals} {ps : List Phase} (hrun : running s)
    (hat : atStep t (.initIO .i0) c ps s) :
    runs [.task t, .task t, .task t] s =
      .next (afterReturn t (s.taskAt t) 0x00#8 ps (ceWritten t false (outputsConfigured t s))) := by
  obtain ⟨ht, -, rfl⟩ := id hat
  refine (runs_eq_atLabel hrun hat rfl).trans ?_
  refine runs_word ⟨hrun, ht⟩ (.initIO .i1) c .irqCfg 7 nofun rfl rfl rfl fun h => ?_
  refine runs_word h (.initIO .i2) c .ceCfg 1 nofun rfl rfl rfl fun h => ?_
  exact runs_ceReturn h false rfl rfl

/-- Settles O42: the run's state written out, its last events by CE's level at the start. -/
theorem initIORuns : Obligations.InitIORuns := by
  unfold Obligations.InitIORuns
  intro s t c ps hrun hat
  refine ⟨.regAcc (.task t) 0x24#8 4 .write 1 :: ceEvents false s, ?_, fun hlow => ?_, fun hhigh => .inl ?_⟩
  · rw [initIO_runs hrun hat]
    refine congrArg (fun s1 => Host.Outcome.next (afterReturn t (s.taskAt t) 0x00#8 ps s1)) ?_
    simp [ceWritten, ceEvents, ceReg, outputsConfigured, written, recorded, writeReg, writeIrqCfg, writeCeCfg,
      State.setIrq, State.setCe, State.emit, regOffset, bitOf]
  · rw [ceEvents, if_pos hlow]
  · rw [ceEvents, if_neg (by simp [hhigh])]

/-! ### Ten ticks -/

/-- `n` ticks since the timer's start: the count is `n`, and MATCH is set once the load value was passed. -/
def ticked (n : Nat) (s : State) : State :=
  { s with
    tmr := { s.tmr with
      count := n
      mtch := if 1 ≤ s.tmr.load ∧ s.tmr.load ≤ n then true else s.tmr.mtch }
    hist := s.hist ++ (List.range n).map fun i => .tick (i + 1) }

theorem ticked_zero {s : State} (h0 : s.tmr.count = 0) : ticked 0 s = s := by
  have hload : ¬ (1 ≤ s.tmr.load ∧ s.tmr.load ≤ 0) := by omega
  simp only [ticked, if_neg hload, List.range_zero, List.map_nil, List.append_nil]
  rw [← h0]

theorem tick_ticked {n : Nat} {s : State} (hn : n + 1 < 2 ^ s.par.timerWidth) :
    tick (ticked n s) = ticked (n + 1) s := by
  have hcount : (n + 1) % 2 ^ s.par.timerWidth = n + 1 := Nat.mod_eq_of_lt hn
  have hmatch : (if n + 1 = s.tmr.load then true
        else if 1 ≤ s.tmr.load ∧ s.tmr.load ≤ n then true else s.tmr.mtch) =
      if 1 ≤ s.tmr.load ∧ s.tmr.load ≤ n + 1 then true else s.tmr.mtch := by
    grind
  simp only [tick, tickTimer_eq, ticked, hcount, hmatch, if_neg (Nat.succ_ne_zero n), State.setTmr, State.emit,
    List.range_succ, List.map_append, List.map_cons, List.map_nil, List.append_assoc]

theorem turn_tick {s : State} (hon : s.tmr.running = true) : turn .timer s = .next (tick s) :=
  turn_on (a := .timer) hon

/-- The timer's turn while task `t` waits at a label. -/
theorem runs_tick {t : Nat} {k : TaskState} {l : Label} {c : Locals} {as : List Agent} {s : State} (h : Ready t s)
    (hon : s.tmr.running = true) :
    runs (.timer :: as) (atLabel t k l c s) = runs as (atLabel t k l c (tick s)) :=
  runs_cons (f := tick) (running_atLabel h.running) (fun _ _ => rfl) fun bs =>
    turn_tick (s := withAgents bs (atLabel t k l c s)) hon

/-- `n` ticks of a timer just started, too few to wrap its count, while task `t` waits at a label. -/
theorem runs_ticks {t : Nat} {k : TaskState} {l : Label} {c : Locals} {as : List Agent} {s : State} (h : Ready t s)
    (hon : s.tmr.running = true) (h0 : s.tmr.count = 0) (n : Nat) (hn : n < 2 ^ s.par.timerWidth) :
    runs (List.replicate n .timer ++ as) (atLabel t k l c s) = runs as (atLabel t k l c (ticked n s)) := by
  induction n generalizing as with
  | zero => rw [ticked_zero h0]; rfl
  | succ n ih =>
    have hready : Ready t (ticked n s) := ⟨h.running, h.isTask⟩
    rw [List.replicate_succ', List.append_assoc, ih (Nat.lt_of_succ_lt hn), List.singleton_append,
      runs_tick hready hon, tick_ticked hn]

/-! ### TriggerPulse -/

/-- A counter of a well-formed launch counts past the pulse (44_frame_sequencer.md R525; 70_reset_and_hazards.md
R706). -/
theorem pulse_lt_counter {s : State} (hrun : running s) : Config.cePulseTicks < 2 ^ s.par.timerWidth := by
  have hwidth : 8 ≤ s.par.timerWidth := by
    have hlaunch := hrun.1
    simp only [launchOk, Bool.and_eq_true, decide_eq_true_eq] at hlaunch
    tauto
  calc Config.cePulseTicks < 2 ^ 8 := by decide
    _ ≤ 2 ^ s.par.timerWidth := Nat.pow_le_pow_right (by decide) hwidth

/-- Step TP0 is the write of CE's register. -/
theorem runs_pulseRaised {t : Nat} {k : TaskState} {c : Locals} {s : State} {as : List Agent}
    {X : Host.Outcome State Fault Refusal} (h : Ready t s)
    (hrest : Ready t (ceWritten t true s) → runs as (atLabel t k (.pulse .tp1) c (ceWritten t true s)) = X) :
    runs (.task t :: as) (atLabel t k (.pulse .tp0) c s) = X := by
  have hpass : ¬ (!targetOk s.par Config.cePulseTicks) = true := by
    simp [targetOk_iff, Nat.le_sub_one_of_lt (pulse_lt_counter h.running)]
  exact runs_write h 4 (.pulse .tp1) c (writeReg_ceReg_recorded t true s) (regWriteOk_ceReg true 1 s) rfl
    (if_neg hpass) hrest

/-- The state with task `t`'s START of the timer done (41_timer.md R420). -/
def timerStarted (t : Nat) (s : State) : State :=
  (recorded t .tmrCtrl 4 .write 1 s).setTmr { s.tmr with count := 0, running := true }

theorem writeReg_tmrCtrl_start (t : Nat) (s : State) :
    writeReg .tmrCtrl 1 (recorded t .tmrCtrl 4 .write 1 s) = some (timerStarted t s) :=
  congrArg some (writeTmrCtrl_eq 1 (recorded t .tmrCtrl 4 .write 1 s))

/-- Settles O41, step by step: the label reached and the state it is reached in. -/
theorem triggerPulseRuns : Obligations.TriggerPulseRuns := by
  unfold Obligations.TriggerPulseRuns
  intro s t c ps hrun hat
  obtain ⟨ht, -, rfl⟩ := id hat
  refine (runs_eq_atLabel hrun hat rfl).trans ?_
  refine runs_pulseRaised ⟨hrun, ht⟩ fun h => ?_
  refine runs_write h 4 (.pulse .tp2) c (writeReg_tmrCtrl_start t _) rfl rfl rfl fun h => ?_
  refine (runs_ticks h rfl rfl 10 (pulse_lt_counter hrun)).trans ?_
  refine runs_read ⟨h.running, h.isTask⟩ 4 (.pulse .tp3) c (r := .tmrCount) rfl rfl rfl rfl fun h => ?_
  rw [runs_ceReturn h false rfl rfl]
  refine congrArg (fun s1 => Host.Outcome.next (afterReturn t (s.taskAt t) 0x00#8 (s.taskAt t).ctx.phases s1)) ?_
  simp [ceWritten, ceEvents, ceReg, ticked, timerStarted, recorded, readTmrCount, timerImage, State.setTmr, State.emit,
    regOffset]
  rfl

end Sys2Proof.Safety
end

section
/-! PROOF. O50: the copy phase. A step C(i) takes its byte, from the literal list or from memory, stores it and goes on, or faults at the first byte that is not admitted (44_frame_sequencer.md R521; 20_memory.md R205, R206; 10_state.md R107). -/

namespace Sys2Proof.Safety

open Sys2Proof.Machine

/-- The part of step C(i) that follows the byte's read: its store, then the next byte or the return. -/
def copyStore (t i : Nat) (c : Locals) (b : Byte) (s : State) : State :=
  stepMemWrite t (.copy i) (addrAdd c.dst i) b
    (fun s => if i + 1 < c.n then gotoStep t (.copy (i + 1)) c s else returnOp t codeOk 0x00#8 s) s

/-- Step C(i) finds its byte `b`, after the events `evs` of the read: none for a literal byte. -/
def copyTakes (t i : Nat) (c : Locals) (s : State) (b : Byte) (evs : List Event) : Prop :=
  (∃ bs, c.src = .lit bs ∧ bs[i]? = some b ∧ evs = []) ∨
    (∃ a, c.src = .mem a ∧ admitted s.par (a + BitVec.ofNat 32 i) = true ∧
      b = memGet s.mem (a + BitVec.ofNat 32 i).toNat ∧
      evs = [.memRd (.task t) (a + BitVec.ofNat 32 i) b])

/-- `s` with the events `evs` made. -/
def withEvents (evs : List Event) (s : State) : State := { s with hist := s.hist ++ evs }

theorem stepCopy_takes {t i : Nat} {c : Locals} {s : State} {b : Byte} {evs : List Event}
    (h : copyTakes t i c s b evs) :
    stepCopy t i c (s.setCurTask t) = copyStore t i c b ((withEvents evs s).setCurTask t) := by
  rcases h with ⟨bs, hsrc, hb, rfl⟩ | ⟨a, hsrc, hadm, rfl, rfl⟩
  · rw [withEvents, List.append_nil]
    simp only [stepCopy, hsrc, hb, Option.getD_some, copyStore]
  · simp only [stepCopy, hsrc]
    exact stepMemRead_ok (s := s.setCurTask t) hadm

/-- A byte outside ADMIT faults, and the fault halts under both policies. -/
theorem stepMemRead_unadmitted {t : Nat} {l : Label} {a : Word} {f : Byte → State → State} {s : State}
    (h : admitted s.par a = false) :
    stepMemRead t l a f s = haltWith t (some (.step l)) (.memoryFault a) s := by
  simp only [stepMemRead, taskMemRead, memRead, h, Bool.false_eq_true, if_false]
  exact raise_fault rfl t _ s

theorem stepMemWrite_unadmitted {t : Nat} {l : Label} {a : Word} {b : Byte} {f : State → State} {s : State}
    (h : admitted s.par a = false) :
    stepMemWrite t l a b f s = haltWith t (some (.step l)) (.memoryFault a) s := by
  simp only [stepMemWrite, taskMemWrite, memWrite, h, Bool.false_eq_true, if_false]
  exact raise_fault rfl t _ s

section Store

variable {t i : Nat} {c : Locals} {b : Byte} {s : State}

theorem copyStore_goto (hadm : admitted s.par (addrAdd c.dst i) = true) (hi : i + 1 < c.n) :
    copyStore t i c b (s.setCurTask t) =
      onTask t { s.taskAt t with ctx := { (s.taskAt t).ctx with cur := some ⟨.copy (i + 1), c⟩ } }
        (memStored t (addrAdd c.dst i) b s) := by
  rw [copyStore, stepMemWrite_ok (s := s.setCurTask t) hadm, if_pos hi]
  rfl

theorem copyStore_return (ht : t < s.tasks.length) (hadm : admitted s.par (addrAdd c.dst i) = true)
    (hi : i + 1 = c.n) :
    copyStore t i c b (s.setCurTask t) =
      afterReturn t (s.taskAt t) 0x00#8 (s.taskAt t).ctx.phases (memStored t (addrAdd c.dst i) b s) := by
  rw [copyStore, stepMemWrite_ok (s := s.setCurTask t) hadm, if_neg (by omega)]
  exact returnOp_setCurTask (s := memStored t (addrAdd c.dst i) b s) ht 0x00#8

theorem copyStore_faults (hadm : admitted s.par (addrAdd c.dst i) = false) :
    copyStore t i c b s = haltWith t (some (.step (.copy i))) (.memoryFault (addrAdd c.dst i)) s :=
  stepMemWrite_unadmitted hadm

end Store

theorem stepCopy_faults {t i : Nat} {c : Locals} {s : State} {a : Word} (hsrc : c.src = .mem a)
    (hadm : admitted s.par (addrAdd a i) = false) :
    stepCopy t i c s = haltWith t (some (.step (.copy i))) (.memoryFault (addrAdd a i)) s := by
  simp only [stepCopy, hsrc]
  exact stepMemRead_unadmitted hadm

/-- Settles O50: the byte's read, then the store by whether its address is admitted and whether it is the last;
without the read, the fault of the source. -/
theorem copyPhase : Obligations.CopyPhase := by
  unfold Obligations.CopyPhase
  intro s t i c ps hrun hmem hat hi d k
  have hturn : runs [.task t] s = .next (stepCopy t i c (s.setCurTask t)) :=
    (runs_single hrun (.task t)).trans (turn_task hat rfl)
  obtain ⟨ht, -, rfl⟩ := hat
  refine ⟨fun b evs hbyte => ?_, fun a hsrc hadm => ?_⟩
  · have hstore : runs [.task t] s = .next (copyStore t i c b ((withEvents evs s).setCurTask t)) :=
      hturn.trans (congrArg Host.Outcome.next (stepCopy_takes hbyte))
    refine ⟨fun hadm => ⟨memPut s.mem d.toNat b, stored_memPut hmem.1 d b, fun hnext => ?_, fun hlast => ?_⟩,
      fun hadm => ?_⟩
    · exact hstore.trans (congrArg Host.Outcome.next (copyStore_goto (s := withEvents evs s) hadm hnext))
    · exact hstore.trans (congrArg Host.Outcome.next (copyStore_return (s := withEvents evs s) ht hadm hlast))
    · exact hstore.trans
        (congrArg Host.Outcome.next (copyStore_faults (s := (withEvents evs s).setCurTask t) hadm))
  · exact hturn.trans (congrArg Host.Outcome.next (stepCopy_faults (s := s.setCurTask t) hsrc hadm))

end Sys2Proof.Safety
end

section
/-! PROOF. O9: raises and the halt. What a raise does is its policy and its place, faults being the codes from 0x80 on and the access against another task's operation; every shape of an instruction stops in a halted state (60_exceptions.md R600-R602, R610, R611). -/

namespace Sys2Proof.Safety

open Sys2Proof.Machine

/-! ### The three ways a raise is taken -/

/-- The faults: the codes of R602, and BusNotSerialized raised by a direct access (R604). -/
theorem isFault_iff (e : Abnormal) :
    isFault e = true ↔ 0x80#8 ≤ abnormalCode e ∨ ∃ u, e = .accessNotSerialized u := by
  cases e <;> simp [isFault, abnormalCode]

theorem raise_halts {e : Abnormal} {s : State} (h : isFault e = true ∨ s.par.errorPolicy = .fatal) (t : Nat)
    (p : Option Place) : raise t p e s = { s with halted := some e, hist := s.hist ++ [.halt e t p] } := by
  have hhalts : (isFault e || s.par.errorPolicy == .fatal) = true := by simpa using h
  exact if_pos hhalts

/-- The end of an operation, as one replacement of its task's fields. -/
theorem complete_eq (t : Nat) (code data : Byte) (s : State) :
    complete t code data s =
      { s with
        active := none
        hist := s.hist ++ [.result t code data]
        tasks := s.tasks.set t { s.taskAt t with ctx := Ctx.idle, result := some (code, data) } } := by
  have htasks : ((s.setResult t code data).setCtx t Ctx.idle).tasks =
      s.tasks.set t { s.taskAt t with ctx := Ctx.idle, result := some (code, data) } := by
    rcases Nat.lt_or_ge t s.tasks.length with ht | ht
    · simp [State.setCtx, State.setResult, taskAt_setTask_same s _ ht]
    · simp [State.setCtx, State.setResult, List.set_eq_of_length_le ht]
  rw [← htasks]
  rfl

section Report

variable {e : Abnormal} {s : State} (he : isFault e = false) (hp : s.par.errorPolicy = .report)
include he hp

theorem raise_step_report (t : Nat) (l : Label) :
    raise t (some (.step l)) e s = complete t (abnormalCode e) 0x00#8 s := by
  simp [raise, he, hp]

theorem raise_issue_report (t : Nat) :
    raise t (some .issue) e s = reportAtIssue t (abnormalCode e) s := by
  simp [raise, he, hp]

end Report

/-! ### A halted state -/

theorem exec_halted {s : State} (h : s.halted.isSome = true) (i : Instr) : exec i s = .fault .halted := by
  rcases exec_shape i s with ⟨r, n, hi⟩ | ⟨r, n, v, hi⟩ | ⟨b, hi⟩ | ⟨isTxd, d, x, y, checks, ps, hi⟩
  · rw [hi, directRead, if_pos h]
  · rw [hi, directWrite, if_pos h]
  · rw [hi, emitCommandByte, if_pos h]
  · rw [hi, issue, if_pos h]

theorem step_halted {s : State} (h : s.halted.isSome = true) (hlaunch : launchOk s.par s.tasks.length = true) :
    step s = .fault .halted := by
  rw [step, oneStep, if_pos hlaunch, if_pos h]

/-- Settles O9: the raise by fault and policy, then by place; the halt by the shapes of an instruction. -/
theorem raisingAndHalting : Obligations.RaisingAndHalting := by
  unfold Obligations.RaisingAndHalting
  refine ⟨fun t p e s => ⟨fun h => ?_, fun hcode hacc hp => ?_⟩, fun s e hs => ?_⟩
  · rw [← or_assoc, ← isFault_iff] at h
    exact raise_halts h t p
  · have he : isFault e = false := by
      rw [← Bool.not_eq_true, isFault_iff, not_or, not_exists]
      exact ⟨BitVec.not_le.mpr hcode, hacc⟩
    refine ⟨?_, ?_⟩
    · rintro l rfl
      rw [raise_step_report he hp, complete_eq]
    · rintro rfl
      exact raise_issue_report he hp t
  · have hhalted : s.halted.isSome = true := by rw [hs]; rfl
    exact ⟨exec_halted hhalted, step_halted hhalted⟩

end Sys2Proof.Safety
end

section
/-! PROOF. O11, O14, O15: issues and direct accesses against an active operation, and the issue of the base operations without one. An operation's instruction is the issue of its descriptor, a register access's instruction the direct access of its register, so each check is said once for all of them (60_exceptions.md R603, R604; 30_encoding.md R312). -/

namespace Sys2Proof.Safety

open Sys2Proof.Machine

/-! ### Issue -/

/-- An operation's instruction is the issue of its descriptor; TXD's alone is checked against the token. -/
theorem exec_operation {i : Instr} {d x y : Word} (h : encode i = .desc d x y) (s : State) :
    ∃ isTxd checks ps, exec i s = issue isTxd d x y checks ps s ∧ (isTxd = true ↔ ∃ n, i = .txd n x y) := by
  cases i with
  | txd n =>
    cases h
    rw [exec, execTxd]
    exact ⟨true, _, _, rfl, iff_of_true rfl ⟨n, rfl⟩⟩
  | rdb | txb | txp | scs | pulse | wreg | waddr | cmd | rstat | send | init =>
    cases h
    simp only [exec, execRdb, execTxb, execTxp, execScs, execPulse, execWreg, execWaddr, execCmd, execRstat, execSend,
      execInit]
    exact ⟨false, _, _, rfl, iff_of_false nofun nofun⟩
  | _ => cases h

/-- An issue while an operation is active is rejected before the operation's own checks. -/
theorem issue_serialized {s : State} {u : Nat} (hh : s.halted = none) (ha : s.active = some u) (isTxd : Bool)
    (d x y : Word) (checks : List (Bool × Abnormal)) (ps : List Phase) :
    issue isTxd d x y checks ps s =
      .next (if isTxd = true ∧ s.owner ≠ none then rejected d x y .transactionInProgress 0x03#8 s
        else rejected d x y (.busNotSerialized u) 0x09#8 s) := by
  have hreject {e : Abnormal} (hs : serializationError isTxd s = some e) (he : isFault e = false) :
      issue isTxd d x y checks ps s = .next (rejected d x y e (abnormalCode e) s) := by
    rw [← raise_issue_eq_rejected he]
    simp [issue, hh, hs]
  split
  next htoken => exact hreject (by simpa [serializationError, ha, Option.isSome_iff_ne_none] using htoken) rfl
  next hfree => exact hreject (by simpa [serializationError, ha, Option.isSome_iff_ne_none] using hfree) rfl

/-- Settles O14: every operation's instruction is an issue, and an issue meets the active operation first. -/
theorem issueSerialized : Obligations.IssueSerialized := by
  unfold Obligations.IssueSerialized
  intro i d x y s u henc hh ha
  obtain ⟨isTxd, checks, ps, hexec, htxd⟩ := exec_operation henc s
  rw [hexec, issue_serialized hh ha]
  simp only [htxd]

theorem mkDesc_txb (b : Byte) : mkDesc 0x02 0 b 0 = 0x02000000#32 ||| b.setWidth 32 <<< 8 := by
  simp [mkDesc_eq_or]

theorem mkDesc_txp (n : Byte) : mkDesc 0x03 0 0 n = 0x03000000#32 ||| n.setWidth 32 := by
  simp [mkDesc_eq_or]

theorem mkDesc_txd (n : Byte) : mkDesc 0x04 0 0 n = 0x04000000#32 ||| n.setWidth 32 := by
  simp [mkDesc_eq_or]

/-- Settles O11: no check of a base operation fails, and its first step is started. -/
theorem issueBaseOperations : Obligations.IssueBaseOperations := by
  unfold Obligations.IssueBaseOperations
  intro s x y h
  have hstart (isTxd : Bool) (d : Word) (op : BaseOp) :
      issue isTxd d x y [] [.base op] s = .next (issued d x y (firstStep op) [] s) := issue_base h rfl op []
  refine ⟨hstart _ _ .readByte, fun b => ?_, fun n => ?_, fun n => ?_, hstart _ _ (.setChipSelect true),
    hstart _ _ (.setChipSelect false), hstart _ _ .triggerPulse⟩
  · rw [← mkDesc_txb]
    exact hstart _ _ (.transmitByte b)
  · rw [← mkDesc_txp]
    exact hstart _ _ (.transmitPolling n.toNat x y)
  · rw [← mkDesc_txd]
    exact hstart _ _ (.transmitDma n.toNat x y)

/-! ### Direct accesses -/

/-- A register access's instruction is a direct access of its register. -/
theorem exec_access {i : Instr} {c : AccessCode} {n : Nat} {v : Word} (h : encode i = .rac c n v) (s : State) :
    ∃ r, exec i s = directRead r n s ∨ exec i s = directWrite r n v s := by
  have hdec : decode (.rac c n v) = .ok i := h ▸ decode_encode i
  obtain ⟨r, ⟨-, rfl⟩ | ⟨-, hw⟩⟩ := decode_rac_cases hdec
  · exact ⟨r, .inl (exec_readInstr r n s)⟩
  · exact ⟨r, .inr (exec_writeInstr hw s)⟩

section Serialized

variable {s : State} {u : Nat} (ha : s.active = some u) (hu : u ≠ s.curTask)
include ha hu

theorem otherActive_some : otherActive s.curTask s = some u := by
  simp [otherActive, ha, hu]

/-- An access with no row meets the active operation before its refusal. -/
theorem directUnassigned_serialized (off : Byte) :
    directUnassigned s.curTask off s = afterHalt (.accessNotSerialized u) s := by
  rw [directUnassigned, otherActive_some ha hu]
  exact raise_fault rfl _ _ s

variable (hh : s.halted = none)
include hh

theorem directRead_serialized (r : Reg) (n : Nat) :
    directRead r n s = .next (afterHalt (.accessNotSerialized u) s) := by
  rw [directRead, hh, otherActive_some ha hu]
  exact congrArg Host.Outcome.next (raise_fault rfl _ _ s)

theorem directWrite_serialized (r : Reg) (n : Nat) (v : Word) :
    directWrite r n v s = .next (afterHalt (.accessNotSerialized u) s) := by
  rw [directWrite, hh, otherActive_some ha hu]
  exact congrArg Host.Outcome.next (raise_fault rfl _ _ s)

end Serialized

/-- Settles O15: the reads, the writes and the accesses with no row, each by the fault it meets first. -/
theorem directAccessSerialized : Obligations.DirectAccessSerialized := by
  unfold Obligations.DirectAccessSerialized
  intro s u hh ha hu
  refine ⟨fun i c n v henc => ?_, fun off n dir v => directUnassigned_serialized ha hu off⟩
  obtain ⟨r, hread | hwrite⟩ := exec_access henc s
  · exact hread.trans (directRead_serialized ha hu hh r n)
  · exact hwrite.trans (directWrite_serialized ha hu hh r n v)

end Sys2Proof.Safety
end

section
/-! PROOF. O35, O36: the two interrupt handlers of the block. Each is a recorded write of 1 that clears its own request, with the notification before it or the hook event after it (60_exceptions.md R620, R621). -/

namespace Sys2Proof.Safety

open Sys2Proof.Machine

theorem handlerWrite_dmaIrq (s : State) :
    handlerWrite .dmaHandler .dmaIrq 1 s =
      { s with dmairq := false, hist := s.hist ++ [.regAcc .dmaHandler 0xC0#8 4 .write 1] } :=
  writeDmaIrq_eq 1 (s.emit (.regAcc .dmaHandler 0xC0#8 4 .write 1))

theorem handlerWrite_irqPend (s : State) :
    handlerWrite .irqHandler .irqPend 1 s =
      { s with
        irq := { s.irq with pend := false }
        hist := s.hist ++ [.regAcc .irqHandler 0x34#8 4 .write 1] } :=
  writeIrqPend_eq 1 (s.emit (.regAcc .irqHandler 0x34#8 4 .write 1))

/-- With no owner the handler posts nothing. -/
theorem dmaHandlerStep_unowned {s : State} (h : s.owner = none) :
    dmaHandlerStep s = handlerWrite .dmaHandler .dmaIrq 1 s := by
  simp [dmaHandlerStep, h]

theorem dmaHandlerStep_owned {s : State} {u : Nat} (h : s.owner = some u) :
    dmaHandlerStep s =
      handlerWrite .dmaHandler .dmaIrq 1 ((s.setNotify u ((s.taskAt u).notify + 1)).setOwner none) := by
  simp [dmaHandlerStep, h]

/-- Settles O35: the handler's step by the owner while the request stands, and no move while it does not. -/
theorem dmaCompleteHandler : Obligations.DmaCompleteHandler := by
  unfold Obligations.DmaCompleteHandler
  intro s hrun
  rw [runs_single hrun]
  refine ⟨fun hreq => ?_, turn_off (a := .dmaHandler)⟩
  rw [turn_on (a := .dmaHandler) hreq, agentStep]
  refine ⟨fun ho => ?_, fun u ho => ?_⟩
  · rw [dmaHandlerStep_unowned ho, handlerWrite_dmaIrq]
  · rw [dmaHandlerStep_owned ho, handlerWrite_dmaIrq]
    rfl

/-- Settles O36: the handler's step while PEND is set, and no move while it is not. -/
theorem irqLineHandler : Obligations.IrqLineHandler := by
  unfold Obligations.IrqLineHandler
  intro s hrun
  rw [runs_single hrun]
  refine ⟨fun hpend => ?_, turn_off (a := .irqHandler)⟩
  rw [turn_on (a := .irqHandler) hpend, agentStep, irqHandlerStep, handlerWrite_irqPend, State.emit,
    List.append_assoc]
  rfl

end Sys2Proof.Safety
end

section
/-! PROOF. O7: a step is the turn of the agent it draws, and the turn of an idle task or of the shift engine runs what its words decode to (00_scope.md R17, R18; 60_exceptions.md R603, R606; 42_spi_transport.md R445). -/

namespace Sys2Proof.Safety

open Sys2Proof.Machine

theorem step_eq_turn {s : State} (h : running s) : step s = turn (chosen s) (drawn s) := by
  obtain ⟨hlaunch, hh⟩ := h
  rw [step, oneStep, if_pos hlaunch, hh]
  rfl

/-- Handing out a turn touches the inputs to come only. -/
theorem drawn_eq (s : State) : ∃ d, drawn s = s.setDraws d := drawAgent_eq s

/-- The turn of an idle task whose entry decodes is the decoded instruction (60_exceptions.md R606). -/
theorem turn_decoded_entry {t : Nat} {inv : Invocation} {rest : List Invocation} {i : Instr} {s : State}
    (h : aboutTo t inv rest s) (hdec : decode (invocationWords inv) = .ok i) :
    turn (.task t) s = exec i (taken t rest s) := by
  rw [turn_idle h, invoke, hdec, setProg_setCurTask]

/-- The shift engine's turn is the decoded command byte where FINISH is enabled (42_spi_transport.md R445). -/
theorem turn_decoded_byte {i : Instr} {s : State} (hfin : finishEnabled s = true)
    (hdec : decode (.fcb s.spi.shreg) = .ok i) : turn .shift s = exec i s := by
  have hbusy : s.spi.bsy = true := (Bool.and_eq_true_iff.mp hfin).1
  have hnostart : ¬ startEnabled s = true := by simp [startEnabled, hbusy]
  rw [turn_on (by simp [enabled, shiftEnabled, hfin]), agentStep, shiftStep, if_neg hnostart, hdec]

/-- Settles O7: the turn handed out, by its agent. -/
theorem stepRunsDecodedInstruction : Obligations.StepRunsDecodedInstruction := by
  unfold Obligations.StepRunsDecodedInstruction
  intro s i hrun
  obtain ⟨d, hd⟩ := drawn_eq s
  rw [step_eq_turn hrun, hd]
  refine ⟨fun t inv rest hc habout hdec => ?_, fun hc hfin hdec => ?_⟩
  · rw [hc]
    exact turn_decoded_entry (s := s.setDraws d) habout hdec
  · rw [hc]
    exact turn_decoded_byte (s := s.setDraws d) hfin hdec

end Sys2Proof.Safety
end

section
/-! PROOF. O8: a hold. A task in an operation whose label's hold is false has no enabled step, so its turn is no move (70_reset_and_hazards.md R723; 00_scope.md R13, R14). -/

namespace Sys2Proof.Safety

open Sys2Proof.Machine

/-- Settles O8: at each label that holds, the false condition is the label's `holdOk`. -/
theorem holdsWait : Obligations.HoldsWait := by
  unfold Obligations.HoldsWait
  intro s t l c ps hrun hat
  have waits (hhold : holdOk t ⟨l, c⟩ s = false) : runs [.task t] s = .next s :=
    (runs_single hrun _).trans (turn_task_holds hat hhold)
  refine ⟨fun hl hrxne => waits ?_, fun hl htxe => waits ?_, fun hl hcount => waits ?_, fun hl hcount => waits ?_,
    fun hl hnotify => waits ?_, fun hl hbusy => waits ?_⟩
  · rcases hl with rfl | rfl | rfl <;> exact hrxne
  · rcases hl with rfl | rfl <;> exact htxe
  · subst hl
    exact decide_eq_false (Nat.not_le.mpr hcount)
  · subst hl
    exact decide_eq_false (Nat.not_le.mpr hcount)
  · subst hl
    exact decide_eq_false (Nat.not_lt.mpr (Nat.le_of_eq hnotify))
  · subst hl
    rcases hbusy with h | h <;> simp [holdOk, h]

end Sys2Proof.Safety
end

section
/-! PROOF. O59: the launch that is refused. Each condition of `launchOk` is one of R706's, and no turn of a well-formed launch is refused: every instruction has a meaning (70_reset_and_hazards.md R706; 20_memory.md R202; 44_frame_sequencer.md R520). -/

namespace Sys2Proof.Safety

open Sys2Proof.Machine

/-! ### No turn is refused -/

theorem directRead_ne_refused (r : Reg) (n : Nat) (s : State) (e : Refusal) : directRead r n s ≠ .refused e := by
  unfold directRead
  split
  · nofun
  · split
    · nofun
    · split <;> nofun

theorem directWrite_ne_refused (r : Reg) (n : Nat) (v : Word) (s : State) (e : Refusal) :
    directWrite r n v s ≠ .refused e := by
  unfold directWrite
  split
  · nofun
  · split
    · nofun
    · split <;> nofun

theorem emitCommandByte_ne_refused (b : Byte) (s : State) (e : Refusal) : emitCommandByte b s ≠ .refused e := by
  unfold emitCommandByte
  split
  · nofun
  · split <;> nofun

theorem issue_ne_refused (isTxd : Bool) (d x y : Word) (checks : List (Bool × Abnormal)) (ps : List Phase) (s : State)
    (e : Refusal) : issue isTxd d x y checks ps s ≠ .refused e := by
  unfold issue
  split
  · nofun
  · dsimp only
    split
    · nofun
    · split <;> nofun

/-- Every instruction has a meaning. -/
theorem exec_ne_refused (i : Instr) (s : State) (e : Refusal) : exec i s ≠ .refused e := by
  rcases exec_shape i s with ⟨r, n, hi⟩ | ⟨r, n, v, hi⟩ | ⟨b, hi⟩ | ⟨isTxd, d, x, y, checks, ps, hi⟩
  · rw [hi]; exact directRead_ne_refused r n s e
  · rw [hi]; exact directWrite_ne_refused r n v s e
  · rw [hi]; exact emitCommandByte_ne_refused b s e
  · rw [hi]; exact issue_ne_refused isTxd d x y checks ps s e

theorem taskStep_ne_refused (t : Nat) (s : State) (e : Refusal) : taskStep t s ≠ .refused e := by
  unfold taskStep
  split
  · nofun
  · split
    · unfold invoke
      split
      · exact exec_ne_refused _ _ e
      · nofun
    · nofun

theorem shiftStep_ne_refused (s : State) (e : Refusal) : shiftStep s ≠ .refused e := by
  unfold shiftStep
  split
  · nofun
  · split
    · exact exec_ne_refused _ _ e
    · nofun

theorem turn_ne_refused (a : Agent) (s : State) (e : Refusal) : turn a s ≠ .refused e := by
  unfold turn
  split
  · cases a with
    | task t => exact taskStep_ne_refused t s e
    | shift => exact shiftStep_ne_refused s e
    | dma | timer | dmaHandler | irqHandler | ovfHandler | device | timeout => nofun
  · nofun

/-- The launch is the only thing a step is refused for. -/
theorem step_refused_iff (s : State) :
    step s = .refused .illFormedLaunch ↔ launchOk s.par s.tasks.length = false := by
  rw [step, oneStep]
  cases hlaunch : launchOk s.par s.tasks.length with
  | false => simp
  | true =>
    cases hhalt : s.halted.isSome with
    | true => simp
    | false => simpa using turn_ne_refused _ _ _

/-! ### The conditions of R706 -/

/-- A range meets the register window where it holds one of the window's addresses (20_memory.md R202). -/
theorem meetsWindow_iff (p : Params) (r : Range) :
    meetsWindow p r = true ↔ ∃ a : Nat, r.base ≤ a ∧ a < r.base + r.size ∧
      p.blockBase.toNat ≤ a ∧ a ≤ p.blockBase.toNat + 0xFF := by
  have hsize : Config.windowSize = 0x100 := rfl
  simp only [meetsWindow, Bool.and_eq_true, decide_eq_true_eq, ne_eq, and_assoc]
  refine ⟨fun h => ⟨max r.base p.blockBase.toNat, by omega⟩, ?_⟩
  rintro ⟨a, h⟩
  omega

/-- An address and its offset from a start. -/
theorem add_ofNat_toNat_sub (a b : Word) : a + BitVec.ofNat 32 (b - a).toNat = b + BitVec.ofNat 32 0 := by
  rw [BitVec.ofNat_toNat, BitVec.setWidth_eq, add_sub_cancel]
  exact (add_zero b).symm

/-- Where the difference of two starts is below 32, the buffer of 32 bytes at one holds the start of the
other; and of two buffers that share an address, one holds the start of the other (44_frame_sequencer.md R520). -/
theorem framesOverlap_iff (p : Params) :
    framesOverlap p = true ↔ ∃ i j : Nat, i < 32 ∧ j < 32 ∧
      p.frameTxBase + BitVec.ofNat 32 i = p.frameRxBase + BitVec.ofNat 32 j := by
  have hsize : Config.frameSize = 32 := rfl
  simp only [framesOverlap, hsize, Bool.or_eq_true, decide_eq_true_eq]
  constructor
  · rintro (h | h)
    · exact ⟨_, 0, h, by decide, add_ofNat_toNat_sub _ _⟩
    · exact ⟨0, _, by decide, h, (add_ofNat_toNat_sub _ _).symm⟩
  · rintro ⟨i, j, hi, hj, h⟩
    bv_omega

theorem launchOk_eq_false_iff (p : Params) (tasks : Nat) :
    launchOk p tasks = false ↔
      (tasks = 0 ∨ p.timerWidth < 8 ∨ p.timePerByte < 1 ∨ p.blockBase.toNat % 0x100 ≠ 0 ∨
        (∃ r ∈ p.admitRanges, meetsWindow p r = true) ∨ framesOverlap p = true ∨
        127 < p.initRfCh.toNat ∨ p.initAddr.length ≠ 5) := by
  simp only [launchOk, Config.windowSize, Bool.and_eq_false_iff, decide_eq_false_iff_not, Bool.not_eq_false',
    List.any_eq_true, beq_eq_false_iff_ne, Nat.not_le, Nat.lt_one_iff, or_assoc]

/-- Settles O59: a step is refused for its launch only, and the launch for a condition of R706. -/
theorem launchRefused : Obligations.LaunchRefused := by
  unfold Obligations.LaunchRefused
  intro s
  simp only [step_refused_iff, launchOk_eq_false_iff, List.length_eq_zero_iff, meetsWindow_iff, framesOverlap_iff]

end Sys2Proof.Safety
end

section
/-! PROOF. O57, O58: the state at launch, from which every field of R700 is read off, and the invariants there (70_reset_and_hazards.md R700). -/

namespace Sys2Proof.Safety

open Sys2Proof.Machine

section Launch

variable (par : Params) (mem : Memory) (progs : List (List Invocation)) (pin : Bool) (draws : Draws)

/-- Every task starts idle with its program, and a number that is no task's with none. -/
theorem taskAt_launch (t : Nat) :
    (State.launch par mem progs pin draws).taskAt t = TaskState.launch ((progs[t]?).getD []) := by
  simp only [State.taskAt, State.launch, List.getElem?_map]
  cases progs[t]? <;> rfl

theorem serialInv_launch : serialInv (State.launch par mem progs pin draws) := by
  intro t
  rw [taskAt_launch]
  exact ⟨⟨nofun, nofun⟩, fun _ => rfl⟩

/-- At launch the units are stopped, no task is in an operation and the history is empty; only memory is the
launch's own. -/
theorem invariants_launch (hmem : memInv (State.launch par mem progs pin draws)) :
    let s := State.launch par mem progs pin draws
    memInv s ∧ timerInv s ∧ dmaInv s ∧ rxInv s ∧ serialInv s ∧ lineInv s ∧ countInv s :=
  ⟨hmem, ⟨Nat.two_pow_pos _, Nat.two_pow_pos _⟩, ⟨nofun, nofun⟩, nofun, serialInv_launch par mem progs pin draws,
    ⟨rfl, rfl⟩, (Nat.zero_mod _).symm⟩

end Launch

/-- Settles O57: `State.reset` is a launch, and its memory lists nothing. -/
theorem invariantsAtReset : Obligations.InvariantsAtReset := by
  unfold Obligations.InvariantsAtReset
  refine ⟨invariants_launch _ _ _ _ _ ⟨rfl, nofun⟩, ?_⟩
  intro par mem progs pin draws s hwf hadm
  exact invariants_launch par mem progs pin draws ⟨hwf, hadm⟩

/-- Settles O58: the fields are those of `State.launch`, the tasks' those of `taskAt_launch`. -/
theorem resetState : Obligations.ResetState := by
  unfold Obligations.ResetState
  intro par mem progs pin draws s
  have htask (t : Nat) : s.taskAt t = TaskState.launch ((progs[t]?).getD []) := taskAt_launch par mem progs pin draws t
  have hdma (c : Chan) : s.dma c = DmaChan.reset := by cases c <;> rfl
  refine ⟨rfl, rfl, rfl, rfl, rfl, rfl, hdma, rfl, rfl, rfl, fun t => ?_, fun t p hp => ?_, rfl, rfl, rfl, rfl, rfl,
    fun r hr => readReg_total hr s, rfl⟩
  · rw [htask]
    exact ⟨rfl, rfl, rfl⟩
  · rw [htask, hp]
    rfl

end Sys2Proof.Safety
end
